-- ==== Sys2Proof/Word.lean ====
section
/-! DEFINITION. The words of the block: bytes, register words and pixels. -/

namespace Sys2Proof

/-- One byte of a stream, one channel of a pixel (R2: "four unsigned 8-bit channels"). -/
abbrev Byte := BitVec 8

/-- A 64-bit host register (R28). -/
abbrev Word64 := BitVec 64

/-- A pixel, four unsigned 8-bit channels, non-premultiplied (R2).
Two pixels are equal when all four channels are equal (R2). -/
structure Pixel where
  r : Byte
  g : Byte
  b : Byte
  a : Byte
deriving DecidableEq, Repr

/-- The all-zero pixel every cache slot holds at stream start (R11). -/
def Pixel.zero : Pixel := ⟨0, 0, 0, 0⟩

/-- The stream-start previous pixel, opaque black (R9). -/
def Pixel.streamStart : Pixel := ⟨0, 0, 0, 255⟩

end Sys2Proof
end

