-- ==== Sys2Proof/Config.lean ====
section
/-! DEFINITION. The open parameters of 00_scope.md section 4: what an implementation fixes. None has a value here. -/

namespace Sys2Proof.Config

/-- `IoErrT`, the type of a transport error value (R41; OPEN, D3): a transport's errors are named by numbers.
DESIGN CHOICE, log 1: safe, the names carry no meaning and `ioerrCode` is not known. -/
abbrev IoErrT := Nat

/-- `ioerr_code : IoErrT -> u64` (R127; OPEN, D41): a free function. Log 1. -/
opaque ioerrCode : IoErrT → Word64

/-- How many legal values MAX_PIXELS has: the largest is the greatest M with `22 + 5 * M < 2^64` (R7). -/
def maxPixelsCount : Nat := (2 ^ 64 - 23) / 5

/-- Which of the legal values MAX_PIXELS takes, before reduction: a free value. Log 2. -/
opaque maxPixelsIndex : Nat

/-- `MAX_PIXELS` (R7; OPEN, D18): any natural number with `1 ≤ MAX_PIXELS` and `22 + 5 * MAX_PIXELS < 2^64`.
The free index is reduced into that range, so each legal value is reached and no other is. Log 2. -/
def maxPixels : Nat := maxPixelsIndex % maxPixelsCount + 1

end Sys2Proof.Config
end

