-- ==== Sys2Proof/Syntax.lean ====
section
/-! DEFINITION. The instruction set: the six chunk kinds of opcode_table.json, with the operands of R78. -/

namespace Sys2Proof

/-- The six chunk kinds (R63). -/
inductive ChunkKind where
  | rgb
  | rgba
  | index
  | diff
  | luma
  | run
deriving DecidableEq, Repr

/-- A chunk with its operands as the assembler writes them (R78): channels are bytes, deltas are signed, a run is its
length. The biases of R73 are applied by the decoder, once. Log 21. -/
inductive Instr where
  /-- `RGB r, g, b` (R69). -/
  | rgb (r g b : Byte)
  /-- `RGBA r, g, b, a` (R70). -/
  | rgba (r g b a : Byte)
  /-- `INDEX i`, a cache slot 0..63 (R65). -/
  | index (i : Fin 64)
  /-- `DIFF dr, dg, db`, signed deltas -2..1 (R66). -/
  | diff (dr dg db : Int)
  /-- `LUMA dg, drg, dbg`: `dg` in -32..31, `drg = dr - dg` and `dbg = db - dg` in -8..7 (R67). -/
  | luma (dg drg dbg : Int)
  /-- `RUN n`, run length 1..62 (R68). -/
  | run (n : Nat)
deriving DecidableEq, Repr

/-- The kind of a chunk. -/
def Instr.kind : Instr → ChunkKind
  | .rgb _ _ _ => .rgb
  | .rgba _ _ _ _ => .rgba
  | .index _ => .index
  | .diff _ _ _ => .diff
  | .luma _ _ _ => .luma
  | .run _ => .run

end Sys2Proof
end

