-- ==== Sys2Proof/Machine/State.lean ====
section
/-! DEFINITION. The state of the block and of its environment, as plain data, and the state after reset. -/

namespace Sys2Proof.Machine

open Sys2Proof.Config

/-! ### Control registers -/

/-- OP: the current operation, or the last one (R21). -/
inductive Op where
  | none
  | decode
  | decodeConfig
  | encode
deriving DecidableEq, Repr

/-- PHASE: the control state (R22). -/
inductive Phase where
  | idle
  | decHeader
  | decChunks
  | decEnd
  | encHeader
  | encChunks
  | encEnd
  | done
  | error
deriving DecidableEq, Repr

/-- ERR_CODE (R126). `badTag` is reserved and never raised (R132). -/
inductive ErrCode where
  | none
  | badMagic
  | badChannels
  | badColorspace
  | badGeometry
  | badTag
  | badEndMarker
  | truncated
  | ioError
deriving DecidableEq, Repr

/-! ### Channels and host: the environment, as scripts of what it does next (log 4, log 6) -/

/-- What the input byte channel does with a request (R41). -/
inductive InAnswer where
  /-- `Byte(b)`. -/
  | byte (b : Byte)
  /-- `EOF`: the stream holds no byte at `pos`. -/
  | eof
  /-- `IoErr(e)`: the transport failed. -/
  | ioErr (e : IoErrT)
  /-- Not answered yet. -/
  | wait
deriving DecidableEq, Repr

/-- What the pixel sink does with an offered pixel (R43: no error answer). -/
inductive SinkAnswer where
  | accept
  /-- Not ready yet. -/
  | wait
deriving DecidableEq, Repr

/-- What the pixel source does when asked (R45). -/
inductive SourceOffer where
  | pixel (p : Pixel)
  /-- Nothing offered yet. -/
  | wait
deriving DecidableEq, Repr

/-- What the byte sink does with a write (R46). -/
inductive OutAnswer where
  | ok
  | ioErr (e : IoErrT)
  /-- Not answered yet. -/
  | wait
deriving DecidableEq, Repr

/-- What the host does (R137, R149). -/
inductive HostAction where
  /-- Write a value to a numbered register (R28). -/
  | write (reg : Nat) (value : Word64)
  /-- Read a numbered register (R28). -/
  | read (reg : Nat)
  /-- Hardware reset (R146). -/
  | reset
  /-- Connect the input channel (R149 step 2). -/
  | connectInput (answers : List InAnswer)
  /-- Connect a pixel sink (R149 step 2). -/
  | connectPixelSink (answers : List SinkAnswer)
  /-- Connect the pixel source (R149 step 2). -/
  | connectPixelSource (offers : List SourceOffer)
  /-- Connect a byte sink (R149 step 2). -/
  | connectByteSink (answers : List OutAnswer)
  /-- Do nothing while the block makes one step. -/
  | pass
deriving DecidableEq, Repr

/-! ### Stops -/

/-- Reasons to stop with a fault: none. Every byte stream and every host action has a defined outcome
(93_implementation_defined.md), and an error is a next state in PHASE ERROR (R128). -/
inductive Fault
deriving DecidableEq, Repr

/-- Reasons to refuse. -/
inductive Refusal where
  /-- Raised only by an arm of `exec` for a chunk with no meaning yet: no arm does. Safe. -/
  | notModelled (mnemonic : String)
deriving DecidableEq, Repr

/-! ### State -/

/-- The block and its environment. Which rule names each field: INVENTORY.md. -/
structure State where
  /-- The previous pixel (R8). -/
  prev : Pixel
  /-- The run counter (R12; log 20). -/
  run : BitVec 6
  /-- The color cache (R10). -/
  cache : Vector Pixel 64
  /-- The chunk scratch (R24): bytes read and not yet used, or bytes of a chunk not yet accepted by the sink (log 12). -/
  scratch : List Byte
  /-- Input byte offset, the "program counter" (R14). -/
  pos : Nat
  /-- Pixels emitted or consumed (R15). -/
  k : Nat
  /-- `width * height` (R16). -/
  npix : Nat
  /-- Output byte offset (R17). -/
  opos : Nat
  /-- WIDTH (R19). -/
  width : Word64
  /-- HEIGHT (R19). -/
  height : Word64
  /-- CHANNELS (R20). -/
  channels : Byte
  /-- COLORSPACE (R20). -/
  colorspace : Byte
  /-- OP (R21). -/
  op : Op
  /-- PHASE (R22). -/
  phase : Phase
  /-- ERR_CODE (R23). -/
  errCode : ErrCode
  /-- ERR_OFFSET (R23). -/
  errOffset : Word64
  /-- ERR_INFO (R23). -/
  errInfo : Word64
  /-- The transport error value, passed through unmodified (R127). -/
  ioErr : Option IoErrT
  /-- Register 9, hardwired to the parameter MAX_PIXELS (R28); no step changes it (log 2). -/
  maxPixels : Nat
  /-- The pixel of this Advance is with the sink, not yet accepted (R43; log 13). -/
  offer : Bool
  /-- The pixel taken from the source whose Step is not finished (R105; log 13). -/
  cur : Option Pixel
  /-- How many end-marker bytes have been read or written (R100, R105; log 13). -/
  markAt : Nat
  /-- Answers of the input channel still to come (log 4). -/
  input : List InAnswer
  /-- Answers of the pixel sink still to come (log 4). -/
  pixelSink : List SinkAnswer
  /-- Pixels the sink has accepted in the current DECODE, oldest first (log 9). -/
  emitted : List Pixel
  /-- Offers of the pixel source still to come (log 4). -/
  pixelSource : List SourceOffer
  /-- Answers of the byte sink still to come (log 4). -/
  byteSink : List OutAnswer
  /-- Bytes the sink has accepted in the current ENCODE, oldest first (log 9). -/
  written : List Byte
  /-- What the host does next (log 6). -/
  host : List HostAction
  /-- (register, value) pairs the host has read, oldest first (log 6). -/
  hostSeen : List (Nat × Word64)
deriving DecidableEq, Repr

/-- The block right after a hardware reset (R31), with nothing connected and a silent host. The fields R31 does not
name are the model's own: DESIGN CHOICE, log 3. -/
def State.reset : State where
  prev := Pixel.streamStart
  run := 0
  cache := Vector.replicate 64 Pixel.zero
  scratch := []
  pos := 0
  k := 0
  npix := 0
  opos := 0
  width := 0
  height := 0
  channels := 0
  colorspace := 0
  op := .none
  phase := .idle
  errCode := .none
  errOffset := 0
  errInfo := 0
  ioErr := none
  maxPixels := Config.maxPixels
  offer := false
  cur := none
  markAt := 0
  input := []
  pixelSink := []
  emitted := []
  pixelSource := []
  byteSink := []
  written := []
  host := []
  hostSeen := []

end Sys2Proof.Machine
end

