-- ==== Sys2Proof/Machine/Flags.lean ====
section
/-! DEFINITION. The codes of the control registers and the flags: three views of PHASE (R25). -/

namespace Sys2Proof.Machine

/-- The code of OP (R21). -/
def Op.code : Op → BitVec 2
  | .none => 0
  | .decode => 1
  | .decodeConfig => 2
  | .encode => 3

/-- The operation a CMD value names (R28, R29). -/
def Op.ofCode (c : BitVec 2) : Op :=
  if c = 1 then .decode else if c = 2 then .decodeConfig else if c = 3 then .encode else .none

/-- The code of PHASE (R22). -/
def Phase.code : Phase → BitVec 4
  | .idle => 0
  | .decHeader => 1
  | .decChunks => 2
  | .decEnd => 3
  | .encHeader => 4
  | .encChunks => 5
  | .encEnd => 6
  | .done => 7
  | .error => 8

/-- The code of ERR_CODE (R126). -/
def ErrCode.code : ErrCode → BitVec 4
  | .none => 0
  | .badMagic => 1
  | .badChannels => 2
  | .badColorspace => 3
  | .badGeometry => 4
  | .badTag => 5
  | .badEndMarker => 6
  | .truncated => 7
  | .ioError => 8

/-- The block is busy in phases 1 to 6 and quiescent in phases 0, 7 and 8 (R22). -/
def Phase.busy : Phase → Bool
  | .idle => false
  | .decHeader => true
  | .decChunks => true
  | .decEnd => true
  | .encHeader => true
  | .encChunks => true
  | .encEnd => true
  | .done => false
  | .error => false

/-- The BUSY flag (R25). -/
def State.busy (s : State) : Bool := s.phase.busy

/-- Quiescent: not busy (R22). -/
def State.quiescent (s : State) : Bool := !s.phase.busy

/-- The DONE flag (R25). -/
def State.doneFlag (s : State) : Bool := decide (s.phase = .done)

/-- The ERROR flag (R25). -/
def State.errorFlag (s : State) : Bool := decide (s.phase = .error)

/-- STATUS: `[3:0]` PHASE, `[5:4]` OP, `[7:6]` 0, `[11:8]` ERR_CODE, `[15:12]` 0 (R28). -/
def State.statusWord (s : State) : BitVec 16 :=
  0#4 ++ s.errCode.code ++ 0#2 ++ s.op.code ++ s.phase.code

/-- FORMAT: `[7:0]` CHANNELS, `[15:8]` COLORSPACE (R28). -/
def State.formatWord (s : State) : BitVec 16 := s.colorspace ++ s.channels

/-- BYTE_COUNT: `pos` when OP is DECODE or DECODE_CONFIG, `opos mod 2^64` when OP is ENCODE, 0 when OP is NONE (R28). -/
def State.byteCount (s : State) : Word64 :=
  match s.op with
  | .none => 0
  | .decode => BitVec.ofNat 64 s.pos
  | .decodeConfig => BitVec.ofNat 64 s.pos
  | .encode => BitVec.ofNat 64 s.opos

end Sys2Proof.Machine
end

