-- ==== Sys2Proof/Machine/Operands.lean ====
section
/-! DEFINITION. Operand arithmetic: 8-bit wraparound, signed differences, the cache hash, the pixel word. -/

namespace Sys2Proof.Machine

/-- `wrap8(x) = x mod 256`, the mathematical modulo (00_scope.md section 5). -/
def wrap8 (x : Int) : Byte := BitVec.ofInt 8 x

/-- `sext8(v)`: an 8-bit value read as a two's complement number (00_scope.md section 5). -/
def sext8 (v : Byte) : Int := v.toInt

/-- One channel update, `wrap8(old + delta)`; nothing carries into another channel and nothing saturates (R104). -/
def addDelta (old : Byte) (delta : Int) : Byte := wrap8 (old.toNat + delta)

/-- The pixel with red, green and blue moved by signed deltas and alpha kept (R96, R97). -/
def shiftPixel (p : Pixel) (dr dg db : Int) : Pixel :=
  ⟨addDelta p.r dr, addDelta p.g dg, addDelta p.b db, p.a⟩

/-- The signed difference of one channel, `sext8(wrap8(new - old))` (R111). -/
def channelDelta (new old : Byte) : Int := sext8 (wrap8 ((new.toNat : Int) - old.toNat))

/-- The three signed differences of `Deltas(p, prev)` (R111). -/
structure Deltas where
  dr : Int
  dg : Int
  db : Int
deriving DecidableEq, Repr

/-- `Deltas(p, prev)` (R111). -/
def deltas (p prev : Pixel) : Deltas :=
  ⟨channelDelta p.r prev.r, channelDelta p.g prev.g, channelDelta p.b prev.b⟩

/-- `hash(p) = wrap8(r*3 + g*5 + b*7 + a*11)` (R34). -/
def hash8 (p : Pixel) : Byte :=
  wrap8 ((p.r.toNat : Int) * 3 + p.g.toNat * 5 + p.b.toNat * 7 + p.a.toNat * 11)

/-- `hash6(p) = hash(p) mod 64`, the cache slot of a pixel (R34). -/
def hash6 (p : Pixel) : Fin 64 := ⟨(hash8 p).toNat % 64, Nat.mod_lt _ (by decide)⟩

/-- The pixel as one word of the pixel channels: `r` in 31:24, `g` in 23:16, `b` in 15:8, `a` in 7:0 (R50). -/
def packPixel (p : Pixel) : BitVec 32 := p.r ++ p.g ++ p.b ++ p.a

/-- The pixel a word of the pixel channels stands for (R50). -/
def unpackPixel (w : BitVec 32) : Pixel :=
  ⟨w.extractLsb' 24 8, w.extractLsb' 16 8, w.extractLsb' 8 8, w.extractLsb' 0 8⟩

/-- Four bytes as a big-endian unsigned 32-bit number: the first byte is the most significant (R48). -/
def bigEndian32 (b0 b1 b2 b3 : Byte) : BitVec 32 := b0 ++ b1 ++ b2 ++ b3

end Sys2Proof.Machine
end

