-- ==== Sys2Proof/Machine/Ops.lean ====
section
/-! DEFINITION. The shared operations: the color cache, the four channel transfers, taking an error, starting an
operation and the hardware reset. -/

namespace Sys2Proof.Machine

open Sys2Proof.Config

/-! ### The color cache -/

/-- A cache read: every index is valid (R36). -/
def State.slot (s : State) (i : Fin 64) : Pixel := s.cache.get i

/-- The one form in which the block writes the cache: `cache[hash6(p)] <- p` (R37). -/
def cacheWrite (cache : Vector Pixel 64) (p : Pixel) : Vector Pixel 64 :=
  cache.set (hash6 p).val p (hash6 p).isLt

/-- The pixel just produced or encoded becomes `prev` and is written to its slot (R37). -/
def writePixel (p : Pixel) (s : State) : State :=
  { s with prev := p, cache := cacheWrite s.cache p }

/-- The stream-start values of `prev`, `run` and `cache` (R9, R11, R13). -/
def initStream (s : State) : State :=
  { s with prev := Pixel.streamStart, run := 0, cache := Vector.replicate 64 Pixel.zero }

/-! ### Taking an error, and the ways out of it -/

/-- `raise E(offset, info)` (R128): the error record is written and PHASE becomes ERROR; every other register keeps
its value. An offset of 2^64 or more is recorded mod 2^64 (log 11). -/
def raise (code : ErrCode) (offset : Nat) (info : Word64) (s : State) : State :=
  { s with errCode := code, errOffset := BitVec.ofNat 64 offset, errInfo := info, phase := .error }

/-- `raise IoError(e, offset)`: ERR_INFO is `ioerr_code(e)`, and `e` itself is kept (R127). -/
def raiseIo (e : IoErrT) (offset : Nat) (s : State) : State :=
  { raise .ioError offset (ioerrCode e) s with ioErr := some e }

/-- The part of a start that every operation shares (R30): the error record and the counters are cleared. The scratch,
the control fields of the model and the records of what the sinks have accepted start afresh too (log 9, log 12, log 13). What stays
connected stays (log 8). -/
def clearForStart (o : Op) (s : State) : State :=
  { s with
    op := o, errCode := .none, errOffset := 0, errInfo := 0, ioErr := none, k := 0, npix := 0, pos := 0, opos := 0,
    scratch := [], offer := false, cur := none, markAt := 0, emitted := [], written := [] }

/-- Starting DECODE or DECODE_CONFIG also clears the header registers (R30). -/
def startDecode (o : Op) (s : State) : State :=
  { clearForStart o s with width := 0, height := 0, channels := 0, colorspace := 0, phase := .decHeader }

/-- Hardware reset (R146): every register to its reset value, whatever the block was doing. A request outstanding is
withdrawn and the next operation has fresh channels (R147): nothing stays connected (log 7). The host, what it has
read and the hardwired register 9 are not the block's to reset. -/
def hardReset (s : State) : State :=
  { State.reset with maxPixels := s.maxPixels, host := s.host, hostSeen := s.hostSeen }

/-! ### Channel transfers -/

/-- What became of a byte request. -/
inductive ReadResult where
  /-- A byte was delivered. -/
  | byte (b : Byte) (s : State)
  /-- The step ends in this state: the channel made the block wait, or the operation ended in an error. -/
  | stop (s : State)
deriving DecidableEq, Repr

/-- `ReadByte()` (R41). While the channel has not answered, the block waits and nothing changes. -/
def readByte (s : State) : ReadResult :=
  match s.input with
  | [] => .stop s
  | .wait :: rest => .stop { s with input := rest }
  | .byte b :: rest => .byte b { s with input := rest, pos := s.pos + 1 }
  | .eof :: rest => .stop (raise .truncated s.pos 0 { s with input := rest })
  | .ioErr e :: rest => .stop (raiseIo e s.pos { s with input := rest })

/-- What became of a sequence of writes. -/
inductive Xfer where
  /-- Everything was accepted. -/
  | ok (s : State)
  /-- The step ends in this state: the sink made the block wait, or the operation ended in an error. -/
  | stop (s : State)
deriving DecidableEq, Repr

/-- Goes on from a completed transfer; a stopped one ends the step. -/
def Xfer.andThen : Xfer → (State → State) → State
  | .ok s, f => f s
  | .stop s, _ => s

/-- `WriteByte(b)` (R46). A refused write does not advance `opos`. -/
def writeByte (b : Byte) (s : State) : Xfer :=
  match s.byteSink with
  | [] => .stop s
  | .wait :: rest => .stop { s with byteSink := rest }
  | .ok :: rest => .ok { s with byteSink := rest, opos := s.opos + 1, written := s.written ++ [b] }
  | .ioErr e :: rest => .stop (raiseIo e s.opos { s with byteSink := rest })

/-- Writes the bytes in the scratch one after another; each leaves the scratch when the sink accepts it (R46, R24). -/
def writeScratch : List Byte → State → Xfer
  | [], s => .ok s
  | b :: bs, s =>
    match writeByte b s with
    | .ok t => writeScratch bs { t with scratch := bs }
    | .stop t => .stop t

/-- Pixel `k` is handed over: `k <- k + 1`, and the chunk phase ends with pixel `npix - 1` (R43, R90). A run still
pending is kept, unread (R101). -/
def pixelAccepted (s : State) : State :=
  { s with
    emitted := s.emitted ++ [s.prev], k := s.k + 1, offer := false,
    phase := if s.k + 1 < s.npix then s.phase else .decEnd }

/-- `EmitPixel(prev)`: waits while the sink is not ready; never drops or reorders a pixel (R43). The pixel an Advance
returns is always `prev` (R91). -/
def emitPixel (s : State) : State :=
  match s.pixelSink with
  | [] => s
  | .wait :: rest => { s with pixelSink := rest }
  | .accept :: rest => pixelAccepted { s with pixelSink := rest }

/-- An Advance has its pixel: the chunk bytes are used up and `prev` is offered to the sink (R91, R24; log 22). -/
def offerPixel (s : State) : State := { s with scratch := [], offer := true }

end Sys2Proof.Machine
end

