-- ==== Sys2Proof/Machine/Cached.lean ====
section
/-! DEFINITION. The cache reference chunk INDEX. -/

namespace Sys2Proof.Machine

/-- INDEX: `prev` becomes slot `i`, read before the write; the write goes to `hash6(prev)`, which is slot 0 for a slot
never written (R95, R40; 90_conflicts.md C6). -/
def execIndex (i : Fin 64) (s : State) : Host.Outcome State Fault Refusal :=
  .next (offerPixel (writePixel (s.slot i) s))

end Sys2Proof.Machine
end

