-- ==== Sys2Proof/Machine/Delta.lean ====
section
/-! DEFINITION. The delta chunks DIFF and LUMA. -/

namespace Sys2Proof.Machine

/-- DIFF: red, green and blue move by their deltas mod 256, alpha is kept, the cache is updated (R96). -/
def execDiff (dr dg db : Int) (s : State) : Host.Outcome State Fault Refusal :=
  .next (offerPixel (writePixel (shiftPixel s.prev dr dg db) s))

/-- LUMA: green moves by `dg`, red by `dg + drg`, blue by `dg + dbg`, mod 256; alpha is kept, the cache is updated
(R97). -/
def execLuma (dg drg dbg : Int) (s : State) : Host.Outcome State Fault Refusal :=
  .next (offerPixel (writePixel (shiftPixel s.prev (dg + drg) dg (dg + dbg)) s))

end Sys2Proof.Machine
end

