-- ==== Sys2Proof/Machine/Literal.lean ====
section
/-! DEFINITION. The literal chunks RGB and RGBA. The chunk's bytes have been read when a meaning runs (R93, R94: the
writes follow the reads). -/

namespace Sys2Proof.Machine

/-- RGB: red, green and blue are set, alpha is kept, the cache is updated (R93). -/
def execRgb (r g b : Byte) (s : State) : Host.Outcome State Fault Refusal :=
  .next (offerPixel (writePixel ⟨r, g, b, s.prev.a⟩ s))

/-- RGBA: all four channels are set, the cache is updated (R94). -/
def execRgba (r g b a : Byte) (s : State) : Host.Outcome State Fault Refusal :=
  .next (offerPixel (writePixel ⟨r, g, b, a⟩ s))

end Sys2Proof.Machine
end

