-- ==== Sys2Proof/Machine/Run.lean ====
section
/-! DEFINITION. The run chunk RUN, and run continuation. -/

namespace Sys2Proof.Machine

/-- RUN: `run` becomes the run length less the pixel returned now; `prev` and the cache are untouched (R98). -/
def execRun (n : Nat) (s : State) : Host.Outcome State Fault Refusal :=
  .next (offerPixel { s with run := BitVec.ofNat 6 (n - 1) })

/-- Run continuation, not a chunk: `run <- run - 1`, `prev` is returned, no byte is read (R92). -/
def runContinue (s : State) : State := { s with run := s.run - 1, offer := true }

end Sys2Proof.Machine
end

