-- ==== Sys2Proof/WellFormed.lean ====
section
/-! DEFINITION. Which chunks have an encoding: every operand in its value range of R73. -/

namespace Sys2Proof

/-- `x` lies in the closed range `[lo, hi]`. -/
def inRange (lo hi x : Int) : Bool := decide (lo ≤ x) && decide (x ≤ hi)

/-- Every operand is in the value range of R73. Channel bytes and slot numbers are in range by their types. -/
def Instr.wf : Instr → Bool
  | .rgb _ _ _ => true
  | .rgba _ _ _ _ => true
  | .index _ => true
  | .diff dr dg db => inRange (-2) 1 dr && inRange (-2) 1 dg && inRange (-2) 1 db
  | .luma dg drg dbg => inRange (-32) 31 dg && inRange (-8) 7 drg && inRange (-8) 7 dbg
  | .run n => decide (1 ≤ n) && decide (n ≤ 62)

end Sys2Proof
end

