-- ==== Sys2Proof/Decode.lean ====
section
/-! DEFINITION. The chunk decoder, total on any bytes, and the encoder, both from 30_encoding.md. -/

namespace Sys2Proof

/-! ### Fields -/

/-- The unsigned field of `len` bits of `t` from bit `lo` up (R73: "Every field is an unsigned bit field"). -/
def field (t : Byte) (lo len : Nat) : Nat := (t.extractLsb' lo len).toNat

/-- A signed delta: the field minus a constant bias, never a sign extension (R73). -/
def biased (raw : Nat) (bias : Int) : Int := raw - bias

/-! ### Decoding -/

/-- The kind of a chunk from its tag byte alone; the two 8-bit tags are tested before the 2-bit tags (R64). -/
def chunkKind (t : Byte) : ChunkKind :=
  if t = 0xFE then .rgb
  else if t = 0xFF then .rgba
  else if field t 6 2 = 0 then .index
  else if field t 6 2 = 1 then .diff
  else if field t 6 2 = 2 then .luma
  else .run

/-- The length of a chunk in bytes, tag included (R63, R72). -/
def chunkLength : ChunkKind → Nat
  | .rgb => 4
  | .rgba => 5
  | .index => 1
  | .diff => 1
  | .luma => 2
  | .run => 1

/-- INDEX: slot `t[5:0]` (R65). -/
def decodeIndex (t : Byte) : Instr := .index ⟨field t 0 6, (t.extractLsb' 0 6).isLt⟩

/-- DIFF: red in `t[5:4]`, green in `t[3:2]`, blue in `t[1:0]`, each biased by -2 (R66).
PRESUMED, log 19: the spec supplies the positions from general knowledge (D16). -/
def decodeDiff (t : Byte) : Instr :=
  .diff (biased (field t 4 2) 2) (biased (field t 2 2) 2) (biased (field t 0 2) 2)

/-- LUMA: green delta in `t[5:0]` biased by -32, `dr - dg` in `p[7:4]` and `db - dg` in `p[3:0]` biased by -8 (R67). -/
def decodeLuma (t p : Byte) : Instr :=
  .luma (biased (field t 0 6) 32) (biased (field p 4 4) 8) (biased (field p 0 4) 8)

/-- RUN: the stored field is the run length minus one (R68). -/
def decodeRun (t : Byte) : Instr := .run (field t 0 6 + 1)

/-- Why a list of bytes is no chunk. No byte pattern is illegal (R75): a list can only be too short. -/
inductive DecodeReject where
  /-- There is no tag byte. -/
  | noTag
  /-- The payload of a chunk of this kind is not all there. -/
  | shortPayload (kind : ChunkKind)
deriving DecidableEq, Repr

/-- What decoding a list of bytes gives: a chunk and the bytes after it, or a named rejection. -/
inductive DecodeResult where
  | ok (i : Instr) (rest : List Byte)
  | reject (why : DecodeReject)
deriving DecidableEq, Repr

/-- The chunk of kind `kind` with tag `t` whose payload stands first in `rest` (R63). -/
def decodePayload (kind : ChunkKind) (t : Byte) (rest : List Byte) : DecodeResult :=
  match kind, rest with
  | .rgb, r :: g :: b :: tl => .ok (.rgb r g b) tl
  | .rgba, r :: g :: b :: a :: tl => .ok (.rgba r g b a) tl
  | .index, tl => .ok (decodeIndex t) tl
  | .diff, tl => .ok (decodeDiff t) tl
  | .luma, p :: tl => .ok (decodeLuma t p) tl
  | .run, tl => .ok (decodeRun t) tl
  | k, _ => .reject (.shortPayload k)

/-- Decodes the chunk at the head of a list of bytes (R63, R64). -/
def decode : List Byte → DecodeResult
  | [] => .reject .noTag
  | t :: rest => decodePayload (chunkKind t) t rest

/-! ### Encoding -/

/-- A number as one byte. -/
def byteOf (x : Int) : Byte := BitVec.ofInt 8 x

/-- `enc_INDEX(i) = [ i ]` (R74). -/
def encIndex (i : Fin 64) : List Byte := [byteOf i.val]

/-- `enc_DIFF` (R74). -/
def encDiff (dr dg db : Int) : List Byte :=
  [0x40#8 ||| byteOf (dr + 2) <<< 4 ||| byteOf (dg + 2) <<< 2 ||| byteOf (db + 2)]

/-- `enc_LUMA` (R74). -/
def encLuma (dg drg dbg : Int) : List Byte :=
  [0x80#8 ||| byteOf (dg + 32), byteOf (drg + 8) <<< 4 ||| byteOf (dbg + 8)]

/-- The tag of `enc_RUN`: `0xC0 | (n - 1)` (R74; 90_conflicts.md C4). -/
def encRunTag (n : Nat) : Byte := 0xC0#8 ||| byteOf ((n : Int) - 1)

/-- `enc_RUN(n)`, `n` in 1..62 (R74). -/
def encRun (n : Nat) : List Byte := [encRunTag n]

/-- `enc_RGB` (R74). -/
def encRgb (r g b : Byte) : List Byte := [0xFE, r, g, b]

/-- `enc_RGBA` (R74). -/
def encRgba (r g b a : Byte) : List Byte := [0xFF, r, g, b, a]

/-- The bytes of a well-formed chunk (R74). -/
def encode : Instr → List Byte
  | .rgb r g b => encRgb r g b
  | .rgba r g b a => encRgba r g b a
  | .index i => encIndex i
  | .diff dr dg db => encDiff dr dg db
  | .luma dg drg dbg => encLuma dg drg dbg
  | .run n => encRun n

/-! ### Words of the opcode table -/

/-- Byte `j` of a table word of `nbits` bits: bit 0 of the word is the least significant bit of the first byte, and
every bit at or above `nbits` is 0 (log 14). -/
def tableByte (nbits w j : Nat) : Byte := BitVec.ofNat 8 (w % 2 ^ nbits / 2 ^ (8 * j))

/-- The bytes of a table word, up to the longest chunk (5 bytes, R72). -/
def tableBytes (nbits w : Nat) : List Byte :=
  [tableByte nbits w 0, tableByte nbits w 1, tableByte nbits w 2, tableByte nbits w 3, tableByte nbits w 4]

/-- The chunk the decoder reads from a table word. -/
def decodeTableWord (nbits w : Nat) : Option Instr :=
  match decode (tableBytes nbits w) with
  | .ok i _ => some i
  | .reject _ => none

end Sys2Proof
end

