-- ==== Sys2Proof/Machine/Fetch.lean ====
section
/-! DEFINITION. Fetching the bytes of a chunk: tag, then the payload its tag asks for, never a byte ahead (R42, R72). -/

namespace Sys2Proof.Machine

/-- The scratch holds a whole chunk: its tag alone tells the length (R72). -/
def chunkComplete (scratch : List Byte) : Bool :=
  match scratch with
  | [] => false
  | t :: payload => decide (chunkLength (chunkKind t) ≤ payload.length + 1)

/-- What became of fetching a chunk. -/
inductive FetchResult where
  /-- The scratch holds the whole chunk. -/
  | ready (s : State)
  /-- The step ends in this state: the channel made the block wait, or the operation ended in an error. -/
  | stop (s : State)
deriving DecidableEq, Repr

/-- Reads bytes into the scratch until the chunk is complete; `fuel` is at least the reads still needed plus one. -/
def fetchBytes : Nat → State → FetchResult
  | 0, s => .stop s
  | fuel + 1, s =>
    if chunkComplete s.scratch then .ready s
    else
      match readByte s with
      | .byte b t => fetchBytes fuel { t with scratch := s.scratch ++ [b] }
      | .stop t => .stop t

/-- A chunk is at most 5 bytes, tag included (R72). -/
def fetchChunk (s : State) : FetchResult := fetchBytes 6 s

end Sys2Proof.Machine
end

