-- ==== Sys2Proof/Machine/Decoder.lean ====
section
/-! DEFINITION. A step of PHASE DEC_CHUNKS: Advance and EmitPixel (R90, R91). -/

namespace Sys2Proof.Machine

/-- The outcome of a meaning, then the pixel's delivery (R90: `p <- Advance(); EmitPixel(p)`). -/
def thenEmit : Host.Outcome State Fault Refusal → Host.Outcome State Fault Refusal
  | .next s => .next (emitPixel s)
  | .fault r => .fault r
  | .refused r => .refused r

/-- Executes the whole chunk in the scratch (R91). The second arm is the defensive one of R132: every complete chunk
decodes, so it is dead (log 16). -/
def execScratch (s : State) : Host.Outcome State Fault Refusal :=
  match decode s.scratch with
  | .ok i _ => thenEmit (exec i s)
  | .reject _ =>
    .next (raise .badTag (s.pos - s.scratch.length) ((s.scratch.headD 0).setWidth 64) s)

/-- One Advance and the delivery of its pixel. A pixel the sink has not accepted yet comes first (R43), then a pending
run, which reads no byte (R92, R152), then a chunk (R91). -/
def decChunksStep (s : State) : Host.Outcome State Fault Refusal :=
  if s.offer then .next (emitPixel s)
  else if s.run ≠ 0 then .next (emitPixel (runContinue s))
  else
    match fetchChunk s with
    | .ready t => execScratch t
    | .stop t => .next t

end Sys2Proof.Machine
end

