-- ==== Sys2Proof/Machine/Encoder.lean ====
section
/-! DEFINITION. A step of PHASE ENC_CHUNKS: the per-pixel Step of the encoder (R107 to R117). -/

namespace Sys2Proof.Machine

/-- The chunk the encoder chooses for a pixel that differs from `prev`, in the strict priority order of R107. -/
def selectChunk (prev : Pixel) (cache : Vector Pixel 64) (p : Pixel) : Instr :=
  let d := deltas p prev
  if cache.get (hash6 p) = p then .index (hash6 p)
  else if p.a = prev.a then
    if inRange (-2) 1 d.dr && inRange (-2) 1 d.dg && inRange (-2) 1 d.db then .diff d.dr d.dg d.db
    else if inRange (-32) 31 d.dg && inRange (-8) 7 (d.dr - d.dg) && inRange (-8) 7 (d.db - d.dg) then
      .luma d.dg (d.dr - d.dg) (d.db - d.dg)
    else .rgb p.r p.g p.b
  else .rgba p.r p.g p.b p.a

/-- The step of pixel `k` is finished: `k <- k + 1`, and the chunk phase ends with pixel `npix - 1` (R105). The flush
of R118 is never taken (log 17). -/
def pixelEncoded (s : State) : State :=
  { s with k := s.k + 1, cur := none, phase := if s.k + 1 < s.npix then s.phase else .encEnd }

/-- The RUN chunk of the pending run is put into the scratch, to be written (R24, R109, R110). -/
def loadRun (s : State) : State := { s with scratch := encRun s.run.toNat }

/-- EmitRUN: the RUN chunk in the scratch is written, then `run <- 0` (R109, R110). -/
def emitRun (s : State) : Xfer :=
  match writeScratch s.scratch s with
  | .ok t => .ok { t with run := 0 }
  | .stop t => .stop t

/-- Writes what is left of the chunk of `p`; only then come the cache and `prev` (R117, R129). -/
def continueChunk (p : Pixel) (s : State) : State :=
  (writeScratch s.scratch s).andThen fun t => pixelEncoded (writePixel p t)

/-- The chunk of `p` is chosen, against the old `prev` and cache (R107, R155), and written. -/
def beginChunk (p : Pixel) (s : State) : State :=
  continueChunk p { s with scratch := encode (selectChunk s.prev s.cache p) }

/-- Goes on with the pixel in flight, whose bytes are in the scratch: a pixel equal to `prev` waits for its RUN chunk
(R109), another one for the pending RUN chunk (R110) or for the rest of its own chunk. -/
def resumePixel (p : Pixel) (s : State) : State :=
  if p = s.prev then (emitRun s).andThen pixelEncoded
  else if s.run ≠ 0 then (emitRun s).andThen (beginChunk p)
  else continueChunk p s

/-- `Step(p, last)` for the pixel just taken (R107). -/
def takePixel (p : Pixel) (s : State) : State :=
  let t := { s with cur := some p }
  if p = t.prev then
    let u := { t with run := t.run + 1 }
    if u.run = 62 ∨ u.k + 1 = u.npix then resumePixel p (loadRun u) else pixelEncoded u
  else if t.run ≠ 0 then resumePixel p (loadRun t)
  else beginChunk p t

/-- `NextPixel()`, then the pixel's step; waits while none is offered (R45). -/
def nextPixel (s : State) : State :=
  match s.pixelSource with
  | [] => s
  | .wait :: rest => { s with pixelSource := rest }
  | .pixel p :: rest => takePixel p { s with pixelSource := rest }

/-- A step of PHASE ENC_CHUNKS: the pixel in flight first, then the next one (R56). -/
def encChunksStep (s : State) : State :=
  match s.cur with
  | some p => resumePixel p s
  | none => nextPixel s

end Sys2Proof.Machine
end

