-- ==== Sys2Proof/Machine/EndMarker.lean ====
section
/-! DEFINITION. The 8-byte end marker: its check (R100) and its writing (R105). -/

namespace Sys2Proof.Machine

/-- The end marker: seven `0x00`, then `0x01` (R71). -/
def endMarker : List Byte := [0, 0, 0, 0, 0, 0, 0, 1]

/-- One more end-marker byte is done; after the eighth the operation is DONE and nothing more moves (R102, R105). -/
def markDone (s : State) : State :=
  { s with markAt := s.markAt + 1, phase := if s.markAt + 1 < endMarker.length then s.phase else .done }

/-- A step of PHASE DEC_END: one byte of CheckEndMarker, checked as it is read (R100). -/
def decEndStep (s : State) : State :=
  match readByte s with
  | .byte b t =>
    if b = endMarker.getD s.markAt 0 then markDone t else raise .badEndMarker s.pos (b.setWidth 64) t
  | .stop t => t

/-- A step of PHASE ENC_END: one byte of the end marker (R105). -/
def encEndStep (s : State) : State :=
  (writeByte (endMarker.getD s.markAt 0) s).andThen markDone

end Sys2Proof.Machine
end

