-- ==== Sys2Proof/Machine/Header.lean ====
section
/-! DEFINITION. The header codec: parse and checks (R79 to R87), option check (R106), header generation (R88). -/

namespace Sys2Proof.Machine

/-- The magic `"qoif"` as a big-endian u32 (R61). PRESUMED, log 19: the spec supplies the ASCII codes. -/
def magicWord : BitVec 32 := 0x716F6966

/-- The length of the header (R60). -/
def headerLength : Nat := 14

/-- CHANNELS is 3 (RGB) or 4 (RGBA) (R62). -/
def legalChannels (c : Byte) : Bool := decide (c = 3) || decide (c = 4)

/-- COLORSPACE is 0 or 1 (R62). -/
def legalColorspace (c : Byte) : Bool := decide (c = 0) || decide (c = 1)

/-! ### Parse: one header byte a step, each check attached to the byte that completes its field (R79) -/

/-- The failing geometry conditions of a decoded header: bit 0 width 0, bit 1 height 0, bit 2 too many pixels (R84). -/
def decodeGeometryMask (maxPixels w h : Nat) : Nat :=
  (if w = 0 then 1 else 0) + (if h = 0 then 2 else 0) + (if w * h > maxPixels then 4 else 0)

/-- The geometry check and the end of DecodeHeader: DECODE enters the chunk phase with the stream-start state,
DECODE_CONFIG is done (R84, R86, R87, R90). -/
def headerComplete (s : State) : State :=
  let w := s.width.toNat
  let h := s.height.toNat
  if decodeGeometryMask s.maxPixels w h = 0 then
    let t := { s with npix := w * h }
    if t.op = .decodeConfig then { t with phase := .done } else { initStream t with phase := .decChunks }
  else raise .badGeometry 4 (BitVec.ofNat 64 (decodeGeometryMask s.maxPixels w h)) s

/-- The magic check, after the fourth byte (R80). -/
def takeMagic (m : BitVec 32) (s : State) : State :=
  if m = magicWord then s else raise .badMagic 0 (m.setWidth 64) s

/-- The channels byte is stored, then checked (R82). -/
def takeChannels (b : Byte) (s : State) : State :=
  let t := { s with channels := b }
  if legalChannels b then t else raise .badChannels 12 (b.setWidth 64) t

/-- The colorspace byte is stored, then checked; the geometry check follows (R83, R84). -/
def takeColorspace (b : Byte) (s : State) : State :=
  let t := { s with colorspace := b }
  if legalColorspace b then headerComplete t else raise .badColorspace 13 (b.setWidth 64) t

/-- The four scratch bytes of a field, first byte most significant (R48). -/
def scratchWord (bytes : List Byte) : BitVec 32 :=
  bigEndian32 (bytes.getD 0 0) (bytes.getD 1 0) (bytes.getD 2 0) (bytes.getD 3 0)

/-- Header byte `b` of offset `o` has been read: bytes of a multi-byte field gather in the scratch, and the byte that
completes a field acts (R79, R81). -/
def takeHeaderByte (o : Nat) (b : Byte) (s : State) : State :=
  let bytes := s.scratch ++ [b]
  if o = 3 then takeMagic (scratchWord bytes) { s with scratch := [] }
  else if o = 7 then { s with scratch := [], width := (scratchWord bytes).setWidth 64 }
  else if o = 11 then { s with scratch := [], height := (scratchWord bytes).setWidth 64 }
  else if o = 12 then takeChannels b s
  else if o = 13 then takeColorspace b s
  else { s with scratch := bytes }

/-- A step of PHASE DEC_HEADER: one byte of DecodeHeader (R79, R85). -/
def decHeaderStep (s : State) : State :=
  match readByte s with
  | .byte b t => takeHeaderByte s.pos b t
  | .stop t => t

/-! ### Options and generation -/

/-- A dimension ENCODE accepts, read as a signed 64-bit integer: neither `≤ 0` nor `≥ 2^32` (R106). -/
def legalDimension (w : Word64) : Bool := decide (0 < w.toInt) && decide (w.toInt < 2 ^ 32)

/-- The failing dimensions of an ENCODE: bit 0 WIDTH, bit 1 HEIGHT (R106). -/
def encodeGeometryMask (w h : Word64) : Nat :=
  (if legalDimension w then 0 else 1) + (if legalDimension h then 0 else 2)

/-- CheckOptions, before any byte is written; when it passes, ENCODE goes on to write the header (R105, R106). -/
def checkOptions (s : State) : State :=
  if encodeGeometryMask s.width s.height ≠ 0 then
    raise .badGeometry 0 (BitVec.ofNat 64 (encodeGeometryMask s.width s.height)) s
  else if legalChannels s.channels = false then raise .badChannels 0 (s.channels.setWidth 64) s
  else if legalColorspace s.colorspace = false then raise .badColorspace 0 (s.colorspace.setWidth 64) s
  else { s with npix := s.width.toNat * s.height.toNat, phase := .encHeader }

/-- Starting ENCODE: WIDTH, HEIGHT and FORMAT keep the host's options, and the option check runs (R30; log 25). -/
def startEncode (s : State) : State := checkOptions (clearForStart .encode s)

/-- The 14 header bytes (R88). -/
def headerBytes (w h : Word64) (c s : Byte) : List Byte :=
  [0x71, 0x6F, 0x69, 0x66,
    w.extractLsb' 24 8, w.extractLsb' 16 8, w.extractLsb' 8 8, w.extractLsb' 0 8,
    h.extractLsb' 24 8, h.extractLsb' 16 8, h.extractLsb' 8 8, h.extractLsb' 0 8,
    c, s]

/-- A header byte has been accepted; after the last one the chunk phase begins with the stream-start state (R105). -/
def headerByteWritten (s : State) : State :=
  if s.opos < headerLength then s else { initStream s with phase := .encChunks }

/-- A step of PHASE ENC_HEADER: one byte of EncodeHeader (R88). -/
def encHeaderStep (s : State) : State :=
  (writeByte ((headerBytes s.width s.height s.channels s.colorspace).getD s.opos 0) s).andThen headerByteWritten

end Sys2Proof.Machine
end

