-- ==== Sys2Proof/Machine/HostPort.lean ====
section
/-! DEFINITION. The host interface: the register map, the commands, reset and the connection of channels (R27 to R30,
R137, R149). -/

namespace Sys2Proof.Machine

/-- What a read of a numbered register returns; no read has a side effect, and reserved numbers read 0 (R28, R137). -/
def readReg (n : Nat) (s : State) : Word64 :=
  match n with
  | 0 => 0
  | 1 => s.statusWord.setWidth 64
  | 2 => s.width
  | 3 => s.height
  | 4 => s.formatWord.setWidth 64
  | 5 => BitVec.ofNat 64 s.k
  | 6 => s.byteCount
  | 7 => s.errOffset
  | 8 => s.errInfo
  | 9 => BitVec.ofNat 64 s.maxPixels
  | _ => 0

/-- Starts an operation (R30); OP 0 starts nothing (R29). -/
def startOp (o : Op) (s : State) : State :=
  match o with
  | .none => s
  | .decode => startDecode .decode s
  | .decodeConfig => startDecode .decodeConfig s
  | .encode => startEncode s

/-- A write of CMD: bits 1:0 are the operation (R28, R29; log 10). -/
def writeCmd (v : Word64) (s : State) : State := startOp (Op.ofCode (v.extractLsb' 0 2)) s

/-- A write of a numbered register. While the block is busy no write has an effect; read-only and reserved registers
are never written (R28, R29, R157). -/
def writeReg (n : Nat) (v : Word64) (s : State) : State :=
  if s.busy then s
  else
    match n with
    | 0 => writeCmd v s
    | 2 => { s with width := v }
    | 3 => { s with height := v }
    | 4 => { s with channels := v.extractLsb' 0 8, colorspace := v.extractLsb' 8 8 }
    | _ => s

/-- What one host action does (R137, R149). -/
def hostAct (a : HostAction) (s : State) : State :=
  match a with
  | .write n v => writeReg n v s
  | .read n => { s with hostSeen := s.hostSeen ++ [(n, readReg n s)] }
  | .reset => hardReset s
  | .connectInput answers => { s with input := answers }
  | .connectPixelSink answers => { s with pixelSink := answers }
  | .connectPixelSource offers => { s with pixelSource := offers }
  | .connectByteSink answers => { s with byteSink := answers }
  | .pass => s

end Sys2Proof.Machine
end

