-- ==== Sys2Proof/Machine/Block.lean ====
section
/-! DEFINITION. One step of the block, and of the block with its host. -/

namespace Sys2Proof.Machine

/-- One step of the block (R55). In a quiescent phase it does nothing until a command or a reset (R143). -/
def blockStep (s : State) : Host.Outcome State Fault Refusal :=
  match s.phase with
  | .idle => .next s
  | .decHeader => .next (decHeaderStep s)
  | .decChunks => decChunksStep s
  | .decEnd => .next (decEndStep s)
  | .encHeader => .next (encHeaderStep s)
  | .encChunks => .next (encChunksStep s)
  | .encEnd => .next (encEndStep s)
  | .done => .next s
  | .error => .next s

/-- One step of the machine: the host's next action, or, where the host does nothing, a step of the block (R144;
log 6). -/
def machineStep (s : State) : Host.Outcome State Fault Refusal :=
  match s.host with
  | [] => blockStep s
  | .pass :: rest => blockStep { s with host := rest }
  | a :: rest => .next (hostAct a { s with host := rest })

/-- The state whose next step reads exactly these bytes as a chunk: a DECODE in its chunk phase with a pixel still to
produce, no run pending, no pixel waiting, and a sink that accepts (log 15). -/
def loadChunkBytes (bytes : List Byte) (s : State) : State :=
  { s with
    host := [], op := .decode, phase := .decChunks, npix := max s.npix (s.k + 1), run := 0, offer := false, scratch := [],
    input := bytes.map .byte, pixelSink := [.accept] }

end Sys2Proof.Machine
end

