-- ==== Sys2Proof/Machine/Step.lean ====
section
/-! DEFINITION. The step, and how one chunk is placed where the step fetches. -/

namespace Sys2Proof.Machine

/-- One step of the machine: the first host action of the script, or one step of the block. -/
def step (s : State) : Host.Outcome State Fault Refusal := machineStep s

/-- The state whose very next step fetches and runs the chunk of a table word (log 14, log 15). -/
def State.withFetchWord (s : State) (nbits w : Nat) : State := loadChunkBytes (tableBytes nbits w) s

end Sys2Proof.Machine
end

