-- ==== Sys2Proof/Safety.lean ====
section
/-! DEFINITION. What a good state and a result are: the invariants every step keeps, and when an output counts. -/

namespace Sys2Proof.Machine

/-! ### Invariants -/

/-- Every slot holds the all-zero pixel or a pixel of its own hash (R37). -/
def CacheInv (s : State) : Prop :=
  ∀ i : Fin 64, s.slot i = Pixel.zero ∨ hash6 (s.slot i) = i

/-- The error record (R23, R127, R132). -/
structure ErrorInv (s : State) : Prop where
  /-- The record is all 0 while no error has occurred in the current operation (R23). -/
  clean : s.phase ≠ .error → s.errCode = .none ∧ s.errOffset = 0 ∧ s.errInfo = 0 ∧ s.ioErr = none
  /-- In PHASE ERROR the record says which error it was, and it is never BAD_TAG (R128, R132). -/
  recorded : s.phase = .error → s.errCode ≠ .none ∧ s.errCode ≠ .badTag
  /-- A transport value is kept exactly with IO_ERROR (R127). -/
  transport : s.errCode = .ioError ↔ s.ioErr.isSome
  /-- ERR_INFO of IO_ERROR is `ioerr_code` of the value kept (R127). -/
  ioInfo : ∀ e, s.ioErr = some e → s.errInfo = Config.ioerrCode e

/-- OP, PHASE and the control fields agree (R21, R22, R86, R105). -/
structure ControlInv (s : State) : Prop where
  idle : s.phase = .idle ↔ s.op = .none
  header : s.phase = .decHeader → s.op = .decode ∨ s.op = .decodeConfig
  decoding : s.phase = .decChunks ∨ s.phase = .decEnd → s.op = .decode
  encoding : s.phase = .encHeader ∨ s.phase = .encChunks ∨ s.phase = .encEnd → s.op = .encode
  offered : s.offer = true → s.phase = .decChunks
  taken : s.cur ≠ none → s.phase = .encChunks ∨ s.phase = .error
  unmarked : s.phase = .decHeader ∨ s.phase = .decChunks ∨ s.phase = .encHeader ∨ s.phase = .encChunks → s.markAt = 0
  mark : s.phase = .decEnd ∨ s.phase = .encEnd → s.markAt < 8

/-- The pixel counter and the records of the sinks (R14, R15, R17, R90, R105). -/
structure CountInv (s : State) : Prop where
  bounded : s.k ≤ s.npix
  decHeader : s.phase = .decHeader → s.pos < 14 ∧ s.k = 0
  encHeader : s.phase = .encHeader → s.opos < 14 ∧ s.k = 0 ∧ 0 < s.npix
  chunks : s.phase = .decChunks ∨ s.phase = .encChunks → s.k < s.npix
  ended : s.phase = .decEnd ∨ s.phase = .encEnd → s.k = s.npix
  complete : s.phase = .done → s.op = .decode ∨ s.op = .encode → s.k = s.npix
  emitted : s.op = .decode → s.emitted.length = s.k
  written : s.op = .encode → s.written.length = s.opos

/-- While the chunk stream or the end marker moves, the header has been validated (R82, R83, R84, R106). -/
structure GeometryInv (s : State) : Prop where
  /-- The header fields of a stream are u32 (R81). -/
  header : s.phase = .decHeader → s.width.toNat < 2 ^ 32 ∧ s.height.toNat < 2 ^ 32
  /-- The channels byte has been checked when the colorspace byte is read (R79, R82). -/
  channelsRead : s.phase = .decHeader → s.pos = 13 → legalChannels s.channels = true
  format : s.phase = .decChunks ∨ s.phase = .decEnd ∨ s.phase = .encHeader ∨ s.phase = .encChunks ∨ s.phase = .encEnd →
    legalChannels s.channels = true ∧ legalColorspace s.colorspace = true
  size : s.phase = .decChunks ∨ s.phase = .decEnd ∨ s.phase = .encHeader ∨ s.phase = .encChunks ∨ s.phase = .encEnd →
    s.npix = s.width.toNat * s.height.toNat ∧ 0 < s.width.toNat ∧ s.width.toNat < 2 ^ 32 ∧
      0 < s.height.toNat ∧ s.height.toNat < 2 ^ 32
  decodeLimit : s.phase = .decChunks ∨ s.phase = .decEnd → s.npix ≤ s.maxPixels

/-- The run counter: at most 61 between two steps, 62 only while a full run waits for the sink, or
after the sink has refused it (R12, R109, R118; log 23). -/
structure RunInv (s : State) : Prop where
  width : s.run.toNat ≤ 62
  decoder : s.phase = .decChunks ∨ s.phase = .decEnd → s.run.toNat ≤ 61
  encoder : s.phase = .encChunks → s.cur = none → s.run.toNat ≤ 61
  flushed : s.phase = .encEnd → s.run = 0

/-- What the scratch holds (R24), and how far the streams have moved (R90, R124). -/
structure FramingInv (s : State) : Prop where
  small : s.scratch.length ≤ 5
  header : s.phase = .decHeader → s.scratch.length = if s.pos < 12 then s.pos % 4 else 0
  chunk : s.phase = .decChunks → chunkComplete s.scratch = false ∧ (s.offer = true ∨ s.run ≠ 0 → s.scratch = [])
  between : s.phase = .encHeader ∨ s.phase = .decEnd ∨ s.phase = .encEnd → s.scratch = []
  encoder : s.phase = .encChunks → s.cur = none → s.scratch = []
  /-- While a pixel is in flight, the scratch holds the RUN chunk being written, or what is left of the pixel's own chunk. -/
  writing : ∀ p, s.phase = .encChunks → s.cur = some p →
    s.scratch ≠ [] ∧ (p = s.prev ∨ s.run ≠ 0 → s.scratch = encRun s.run.toNat)
  decPos : s.phase = .decChunks → s.pos ≤ 14 + 5 * s.k + s.scratch.length + (if s.offer then 5 else 0)
  decEndPos : s.phase = .decEnd → s.pos ≤ 14 + 5 * s.npix + s.markAt
  decLimit : s.op = .decode ∨ s.op = .decodeConfig → s.pos ≤ 22 + 5 * s.npix
  encOpos : s.phase = .encChunks → s.cur = none → s.opos + 5 * s.run.toNat ≤ 14 + 5 * s.k
  encFlight : ∀ p, s.phase = .encChunks → s.cur = some p →
    if p = s.prev then s.run ≠ 0 ∧ s.opos + 5 * s.run.toNat ≤ 19 + 5 * s.k
    else if s.run = 0 then s.opos + s.scratch.length ≤ 19 + 5 * s.k
    else s.opos + 5 * s.run.toNat ≤ 14 + 5 * s.k
  encEndOpos : s.phase = .encEnd → s.opos ≤ 14 + 5 * s.npix + s.markAt
  encLimit : s.op = .encode → s.opos ≤ 22 + 5 * s.npix

/-- The hardwired register 9 holds a legal MAX_PIXELS (R7). -/
def LimitInv (s : State) : Prop := 1 ≤ s.maxPixels ∧ 22 + 5 * s.maxPixels < 2 ^ 64

/-- A good state. -/
structure Inv (s : State) : Prop where
  cache : CacheInv s
  error : ErrorInv s
  control : ControlInv s
  count : CountInv s
  geometry : GeometryInv s
  run : RunInv s
  framing : FramingInv s
  limit : LimitInv s

/-! ### Results -/

/-- The pixels of a DECODE are a result only in PHASE DONE (R47, R103, R156). -/
def decodeResult (s : State) : Option (List Pixel) :=
  if s.phase = .done ∧ s.op = .decode then some s.emitted else none

/-- The bytes of an ENCODE are a stream only in PHASE DONE (R47, R105). -/
def encodeResult (s : State) : Option (List Byte) :=
  if s.phase = .done ∧ s.op = .encode then some s.written else none

/-- The pixel at a column and a row of a decoded image of a given width, in raster order (R15, R103). -/
def pixelAt (s : State) (width column row : Nat) : Option Pixel :=
  (decodeResult s).bind fun pixels => pixels[row * width + column]?

/-- A run of `n` steps is safe: it ends in a good state, by no fault and no refusal. -/
def SafeRun (n : Nat) (s : State) : Prop :=
  ∃ t, Host.Core.run Sys2Proof.core n s = .next t ∧ Inv t

end Sys2Proof.Machine
end

