-- ==== Sys2Proof/Certificates/Slice0/Obligations.lean ====
section
/-! DEFINITION. The statements for the provers, from the numbered rules of spec/. They state and never prove. -/

open Sys2Proof Sys2Proof.Machine

namespace Sys2Proof.Statements

/-! ### Words the statements share -/

/-- A run of the machine. -/
abbrev runs (n : Nat) (s t : State) : Prop := Host.Core.run Sys2Proof.core n s = .next t

/-- The channel answers that deliver these bytes. -/
def bytesIn (bytes : List Byte) : List InAnswer := bytes.map .byte

/-- A decoder about to read the tag of a chunk, with a silent host: no pixel waits for the sink and no run is pending
(R91, R152). -/
structure AtTag (s : State) : Prop where
  host : s.host = []
  phase : s.phase = .decChunks
  offer : s.offer = false
  run : s.run = 0
  scratch : s.scratch = []

/-- The state after the chunk `bytes` has been read, its pixel `p` emitted and taken by the sink (R43, R90): the bytes
are consumed, `prev` is `p`, the sink has it, `k` has advanced, and PHASE is DEC_END after pixel `npix - 1`. -/
def afterPixel (s : State) (bytes : List Byte) (input : List InAnswer) (sink : List SinkAnswer) (p : Pixel) : State :=
  { s with
    input := input, pixelSink := sink, pos := s.pos + bytes.length, prev := p, emitted := s.emitted ++ [p],
    k := s.k + 1, phase := if s.k + 1 < s.npix then .decChunks else .decEnd }

/-- The state in which an operation has ended with an error recorded at `offset`. ERR_OFFSET is 64 bits: it is the offset
itself up to `2^64 - 1`, which `pos` does not pass (R18); above that, mod 2^64 is the model's reading (log 11). -/
def failed (code : ErrCode) (offset : Nat) (info : Word64) (io : Option Config.IoErrT) (s : State) : State :=
  { s with
    phase := .error, errCode := code, errOffset := BitVec.ofNat 64 offset, errInfo := info, ioErr := io }

/-- Where the input ends or fails after `j` bytes of a chunk, the operation ends with TRUNCATED or IO_ERROR at the
offset of the byte not delivered; `prev`, the cache, `run` and `k` are as before (R41, R129). -/
def FailsInside (s : State) (bytes : List Byte) : Prop :=
  ∀ (j : Nat) (rest : List InAnswer), j < bytes.length →
    (s.input = bytesIn (bytes.take j) ++ .eof :: rest →
      step s = .next (failed .truncated (s.pos + j) 0 s.ioErr
        { s with input := rest, pos := s.pos + j, scratch := bytes.take j })) ∧
    (∀ e, s.input = bytesIn (bytes.take j) ++ .ioErr e :: rest →
      step s = .next (failed .ioError (s.pos + j) (Config.ioerrCode e) (some e)
        { s with input := rest, pos := s.pos + j, scratch := bytes.take j }))

/-- At a tag, the chunk `bytes` yields pixel `p` with cache `cache` and run counter `run`, and nothing else changes. -/
def ChunkYields (s : State) (bytes : List Byte) (p : Pixel) (cache : Vector Pixel 64) (run : BitVec 6) : Prop :=
  ∀ (rest : List InAnswer) (sink : List SinkAnswer), s.input = bytesIn bytes ++ rest → s.pixelSink = .accept :: sink →
    step s = .next { afterPixel s bytes rest sink p with cache := cache, run := run }

/-- Slot `hash6(p)` of the cache, and only that slot, is written with `p` (R37); the slot number is written out from
the hash formula of R34. -/
def WritesHashSlot (before after : Vector Pixel 64) (p : Pixel) : Prop :=
  ∀ j : Fin 64, after.get j =
    if j.val = (p.r.toNat * 3 + p.g.toNat * 5 + p.b.toNat * 7 + p.a.toNat * 11) % 256 % 64 then p else before.get j

/-- A channel moved by a signed delta: `wrap8(old + delta)` (R104). -/
def MovedBy (new old : Byte) (delta : Int) : Prop := (new.toNat : Int) = (old.toNat + delta) % 256

/-- A started DECODE or DECODE_CONFIG that has read nothing (R30). -/
structure FreshDecode (o : Op) (s : State) : Prop where
  host : s.host = []
  op : s.op = o
  phase : s.phase = .decHeader
  pos : s.pos = 0
  k : s.k = 0
  npix : s.npix = 0
  scratch : s.scratch = []
  offer : s.offer = false
  cur : s.cur = none
  markAt : s.markAt = 0
  emitted : s.emitted = []
  errCode : s.errCode = .none
  errOffset : s.errOffset = 0
  errInfo : s.errInfo = 0
  ioErr : s.ioErr = none

/-- A started ENCODE whose options have passed and that has written nothing (R30, R106). -/
structure FreshEncode (s : State) : Prop where
  host : s.host = []
  op : s.op = .encode
  phase : s.phase = .encHeader
  opos : s.opos = 0
  k : s.k = 0
  scratch : s.scratch = []
  cur : s.cur = none
  markAt : s.markAt = 0
  written : s.written = []
  width : 0 < s.width.toNat ∧ s.width.toNat < 2 ^ 32
  height : 0 < s.height.toNat ∧ s.height.toNat < 2 ^ 32
  npix : s.npix = s.width.toNat * s.height.toNat
  channels : s.channels = 3 ∨ s.channels = 4
  colorspace : s.colorspace = 0 ∨ s.colorspace = 1

/-- Four bytes as a big-endian number (R48). -/
def bigEndian (b0 b1 b2 b3 : Byte) : Nat :=
  b0.toNat * 2 ^ 24 + b1.toNat * 2 ^ 16 + b2.toNat * 2 ^ 8 + b3.toNat

/-- The signed difference of two channels, `sext8(wrap8(new - old))` (R111). -/
def signedDelta (new old : Byte) : Int := ((new.toNat : Int) - old.toNat + 128) % 256 - 128

/-- The bytes the encoder writes for a pixel `p` that differs from `prev`, by the strict priority of R107 with the
encodings of R74 written out. -/
def chosenBytes (prev : Pixel) (cache : Vector Pixel 64) (p : Pixel) : List Byte :=
  let dr := signedDelta p.r prev.r
  let dg := signedDelta p.g prev.g
  let db := signedDelta p.b prev.b
  let idx := (p.r.toNat * 3 + p.g.toNat * 5 + p.b.toNat * 7 + p.a.toNat * 11) % 256 % 64
  if cache[idx]? = some p then [BitVec.ofNat 8 idx]
  else if p.a = prev.a then
    if (-2 ≤ dr ∧ dr ≤ 1) ∧ (-2 ≤ dg ∧ dg ≤ 1) ∧ (-2 ≤ db ∧ db ≤ 1) then
      [BitVec.ofInt 8 (64 + 16 * (dr + 2) + 4 * (dg + 2) + (db + 2))]
    else if (-32 ≤ dg ∧ dg ≤ 31) ∧ (-8 ≤ dr - dg ∧ dr - dg ≤ 7) ∧ (-8 ≤ db - dg ∧ db - dg ≤ 7) then
      [BitVec.ofInt 8 (128 + (dg + 32)), BitVec.ofInt 8 (16 * (dr - dg + 8) + (db - dg + 8))]
    else [0xFE, p.r, p.g, p.b]
  else [0xFF, p.r, p.g, p.b, p.a]

/-- An encoder between two pixels, with a silent host (R107). -/
structure AtPixel (s : State) : Prop where
  host : s.host = []
  phase : s.phase = .encChunks
  cur : s.cur = none
  scratch : s.scratch = []

/-- The state after the step of a pixel is complete (R105): the pixel is taken, `bytes` are accepted, `k` has advanced,
and PHASE is ENC_END after pixel `npix - 1`. -/
def afterStep (s : State) (source : List SourceOffer) (sink : List OutAnswer) (bytes : List Byte) (run : BitVec 6) :
    State :=
  { s with
    pixelSource := source, byteSink := sink, opos := s.opos + bytes.length, written := s.written ++ bytes, run := run,
    k := s.k + 1, phase := if s.k + 1 < s.npix then .encChunks else .encEnd }

/-- The pixels a source offers, in order, without its delays. -/
def offered : List SourceOffer → List Pixel
  | [] => []
  | .pixel p :: rest => p :: offered rest
  | .wait :: rest => offered rest

/-- How many bytes a list of channel answers delivers. -/
def delivered : List InAnswer → Nat
  | [] => 0
  | .byte _ :: rest => delivered rest + 1
  | _ :: rest => delivered rest

/-- How many writes a list of sink answers accepts. -/
def accepted : List OutAnswer → Nat
  | [] => 0
  | .ok :: rest => accepted rest + 1
  | _ :: rest => accepted rest

/-- The number of a phase in the table of R22. -/
def phaseNumber : Phase → Nat
  | .idle => 0
  | .decHeader => 1
  | .decChunks => 2
  | .decEnd => 3
  | .encHeader => 4
  | .encChunks => 5
  | .encEnd => 6
  | .done => 7
  | .error => 8

/-- The number of an operation (R21). -/
def opNumber : Op → Nat
  | .none => 0
  | .decode => 1
  | .decodeConfig => 2
  | .encode => 3

/-- The number of an error in the table of R126. -/
def errNumber : ErrCode → Nat
  | .none => 0
  | .badMagic => 1
  | .badChannels => 2
  | .badColorspace => 3
  | .badGeometry => 4
  | .badTag => 5
  | .badEndMarker => 6
  | .truncated => 7
  | .ioError => 8

/-- The quiescent phases: IDLE, DONE and ERROR (R22). -/
def QuiescentPhase (p : Phase) : Prop := p = .idle ∨ p = .done ∨ p = .error

/-- Two states that differ at most in what no host can see after an operation (R26): `prev`, `run` and the cache, and in
those only while no chunk phase or end-marker phase is on. -/
structure SameOutside (s t : State) : Prop where
  visible : t = { s with prev := t.prev, run := t.run, cache := t.cache }
  inside : s.phase = .decChunks ∨ s.phase = .decEnd ∨ s.phase = .encChunks ∨ s.phase = .encEnd → t = s

end Sys2Proof.Statements

open Sys2Proof.Statements

/-! ### Encoding -/

/-- R74, R63: decoding the encoding of a well-formed chunk gives it back, whatever bytes follow. -/
def Obligations.DecodeInvertsEncode : Prop :=
  ∀ (i : Instr) (rest : List Byte), i.wf = true → decode (encode i ++ rest) = .ok i rest

/-- R63, R75: what the decoder reads is a well-formed chunk, its encoding is exactly the bytes read, and its length is
that of its kind. -/
def Obligations.DecodedChunkReencodesToItsBytes : Prop :=
  ∀ (bytes rest : List Byte) (i : Instr), decode bytes = .ok i rest →
    i.wf = true ∧ bytes = encode i ++ rest ∧ (encode i).length = chunkLength i.kind

/-- R64, R72, R63: the tag byte alone selects the kind and the length, `0xFE` and `0xFF` first. A list that is long enough
decodes; a shorter one is rejected by name. -/
def Obligations.TagByteAloneSelectsKindAndLength : Prop :=
  decode [] = .reject .noTag ∧
  ∀ (t : Byte) (payload : List Byte),
    let kind : ChunkKind :=
      if t.toNat = 254 then .rgb else if t.toNat = 255 then .rgba else if t.toNat < 64 then .index
      else if t.toNat < 128 then .diff else if t.toNat < 192 then .luma else .run
    let length : Nat := if t.toNat = 254 then 4 else if t.toNat = 255 then 5 else if 128 ≤ t.toNat ∧ t.toNat < 192 then 2 else 1
    (length ≤ payload.length + 1 → ∃ i, decode (t :: payload) = .ok i (payload.drop (length - 1)) ∧ i.kind = kind) ∧
    (payload.length + 1 < length → decode (t :: payload) = .reject (.shortPayload kind))

/-- R65, R67, R69, R70, and R68 with its bias from D17: the fields of INDEX, LUMA, RGB, RGBA and RUN. The payload order
r, g, b is the listing order of R49 and N6, which the model presumes (log 19). -/
def Obligations.ChunkFieldsHaveTheirBitsAndBiases : Prop :=
  ∀ (t p q r a : Byte) (rest : List Byte),
    (t.toNat < 64 → ∃ i : Fin 64, i.val = t.toNat ∧ decode (t :: rest) = .ok (.index i) rest) ∧
    (128 ≤ t.toNat ∧ t.toNat < 192 →
      decode (t :: p :: rest) =
        .ok (.luma ((t.toNat % 64 : Nat) - 32) ((p.toNat / 16 : Nat) - 8) ((p.toNat % 16 : Nat) - 8)) rest) ∧
    (192 ≤ t.toNat ∧ t.toNat < 254 → decode (t :: rest) = .ok (.run (t.toNat % 64 + 1)) rest) ∧
    decode (0xFE :: p :: q :: r :: rest) = .ok (.rgb p q r) rest ∧
    decode (0xFF :: p :: q :: r :: a :: rest) = .ok (.rgba p q r a) rest

/-- R66 (positions from general knowledge, D16, log 19): the fields of DIFF. -/
def Obligations.DiffFieldsHaveTheirBitsAndBias : Prop :=
  ∀ (t : Byte) (rest : List Byte), 64 ≤ t.toNat ∧ t.toNat < 128 →
    decode (t :: rest) =
      .ok (.diff ((t.toNat / 16 % 4 : Nat) - 2) ((t.toNat / 4 % 4 : Nat) - 2) ((t.toNat % 4 : Nat) - 2)) rest

/-- 95_test_vectors.md, sections 4 and 7: words of every kind decode to the chunk the vector names (the DIFF positions and
the order r, g, b are those of log 19). -/
def Obligations.VectorWordsDecodeAsNamed : Prop :=
  decode [0xFE, 0x10, 0x20, 0x30] = .ok (.rgb 16 32 48) [] ∧
  decode [0xFF, 0x01, 0x02, 0x03, 0x80] = .ok (.rgba 1 2 3 128) [] ∧
  decode [0x15] = .ok (.index 21) [] ∧
  decode [0x79] = .ok (.diff 1 0 (-1)) [] ∧
  decode [0xAA, 0x5C] = .ok (.luma 10 (-3) 4) [] ∧
  decode [0xC2] = .ok (.run 3) []

/-! ### Operand arithmetic -/

/-- R34: the cache index of a pixel. -/
def Obligations.HashIsTheWeightedSumMod256ThenMod64 : Prop :=
  ∀ p : Pixel,
    (hash8 p).toNat = (p.r.toNat * 3 + p.g.toNat * 5 + p.b.toNat * 7 + p.a.toNat * 11) % 256 ∧
    (hash6 p).val = (p.r.toNat * 3 + p.g.toNat * 5 + p.b.toNat * 7 + p.a.toNat * 11) % 256 % 64

/-- R50: the pixel word, and that no bit of it is lost. -/
def Obligations.PixelWordHoldsRedHighestAlphaLowest : Prop :=
  (∀ p : Pixel,
    (packPixel p).toNat = p.r.toNat * 2 ^ 24 + p.g.toNat * 2 ^ 16 + p.b.toNat * 2 ^ 8 + p.a.toNat ∧
    unpackPixel (packPixel p) = p) ∧
  ∀ w : BitVec 32, packPixel (unpackPixel w) = w

/-! ### The meanings -/

/-- R93, R94: RGB and RGBA complete in every state, with their frame: `prev`, the slot of its hash, the scratch and the
offer to the sink (log 12, log 13) change, and nothing else. -/
def Obligations.LiteralChunksSetPrevAndItsSlot : Prop :=
  ∀ (r g b a : Byte) (s : State),
    (∃ t, exec (.rgb r g b) s = .next t ∧ t.prev = ⟨r, g, b, s.prev.a⟩ ∧ WritesHashSlot s.cache t.cache t.prev ∧
      t = { s with prev := t.prev, cache := t.cache, scratch := [], offer := true }) ∧
    (∃ t, exec (.rgba r g b a) s = .next t ∧ t.prev = ⟨r, g, b, a⟩ ∧ WritesHashSlot s.cache t.cache t.prev ∧
      t = { s with prev := t.prev, cache := t.cache, scratch := [], offer := true })

/-- R95: INDEX completes in every state; it reads the slot its operand names and writes the slot of the pixel's hash. -/
def Obligations.IndexChunkReadsItsSlotAndWritesTheHashSlot : Prop :=
  ∀ (i : Fin 64) (s : State), ∃ t, exec (.index i) s = .next t ∧
    s.cache[i.val]? = some t.prev ∧ WritesHashSlot s.cache t.cache t.prev ∧
    t = { s with prev := t.prev, cache := t.cache, scratch := [], offer := true }

/-- R96, R97, R104: DIFF and LUMA complete in every state; each channel moves by its delta mod 256, alpha is kept. -/
def Obligations.DeltaChunksMoveEachChannelMod256 : Prop :=
  ∀ (dr dg db drg dbg : Int) (s : State),
    (∃ t, exec (.diff dr dg db) s = .next t ∧ MovedBy t.prev.r s.prev.r dr ∧ MovedBy t.prev.g s.prev.g dg ∧
      MovedBy t.prev.b s.prev.b db ∧ t.prev.a = s.prev.a ∧ WritesHashSlot s.cache t.cache t.prev ∧
      t = { s with prev := t.prev, cache := t.cache, scratch := [], offer := true }) ∧
    (∃ t, exec (.luma dg drg dbg) s = .next t ∧ MovedBy t.prev.r s.prev.r (dg + drg) ∧ MovedBy t.prev.g s.prev.g dg ∧
      MovedBy t.prev.b s.prev.b (dg + dbg) ∧ t.prev.a = s.prev.a ∧ WritesHashSlot s.cache t.cache t.prev ∧
      t = { s with prev := t.prev, cache := t.cache, scratch := [], offer := true })

/-- R98: RUN completes in every state; the run counter takes the length less one, and `prev` and the cache are kept. -/
def Obligations.RunChunkSetsOnlyTheRunCounter : Prop :=
  ∀ (n : Nat) (s : State), (Instr.run n).wf = true → ∃ t, exec (.run n) s = .next t ∧ t.run.toNat + 1 = n ∧
    t = { s with run := t.run, scratch := [], offer := true }

/-! ### The decoder's step -/

/-- R91: at a tag, a step is the meaning of the chunk the bytes decode to, run in the state with exactly those bytes
consumed, followed by the delivery of its pixel. -/
def Obligations.StepRunsTheDecodedChunk : Prop :=
  ∀ (s : State) (bytes : List Byte) (i : Instr) (rest : List InAnswer), AtTag s → decode bytes = .ok i [] →
    s.input = bytesIn bytes ++ rest →
    step s = thenEmit (exec i { s with input := rest, pos := s.pos + bytes.length, scratch := bytes })

/-- R93: RGB, whole: the pixel, the slot, `pos` and the emission, or the failing read. That the payload bytes are r, g, b in
this order is the listing order of R49 and N6, which the model presumes (log 19). -/
def Obligations.RgbChunkStep : Prop :=
  ∀ (s : State) (r g b : Byte), AtTag s →
    (∃ cache, WritesHashSlot s.cache cache ⟨r, g, b, s.prev.a⟩ ∧
      ChunkYields s [0xFE, r, g, b] ⟨r, g, b, s.prev.a⟩ cache 0) ∧
    FailsInside s [0xFE, r, g, b]

/-- R94 (payload order r, g, b, a by R49 and N6, log 19): RGBA, whole. -/
def Obligations.RgbaChunkStep : Prop :=
  ∀ (s : State) (r g b a : Byte), AtTag s →
    (∃ cache, WritesHashSlot s.cache cache ⟨r, g, b, a⟩ ∧ ChunkYields s [0xFF, r, g, b, a] ⟨r, g, b, a⟩ cache 0) ∧
    FailsInside s [0xFF, r, g, b, a]

/-- R95: INDEX, whole. A slot other than slot 0 that still holds the all-zero pixel writes slot 0 (corner case 1). -/
def Obligations.IndexChunkStep : Prop :=
  ∀ (s : State) (t : Byte), AtTag s → t.toNat < 64 →
    (∃ p cache, s.cache[t.toNat]? = some p ∧ WritesHashSlot s.cache cache p ∧ ChunkYields s [t] p cache 0 ∧
      (p = ⟨0, 0, 0, 0⟩ → cache.get 0 = ⟨0, 0, 0, 0⟩)) ∧
    FailsInside s [t]

/-- R96 (field positions from general knowledge, D16, log 19): DIFF, whole. -/
def Obligations.DiffChunkStep : Prop :=
  ∀ (s : State) (t : Byte), AtTag s → 64 ≤ t.toNat → t.toNat < 128 →
    (∃ (p : Pixel) (cache : Vector Pixel 64),
      MovedBy p.r s.prev.r ((t.toNat / 16 % 4 : Nat) - 2) ∧ MovedBy p.g s.prev.g ((t.toNat / 4 % 4 : Nat) - 2) ∧
      MovedBy p.b s.prev.b ((t.toNat % 4 : Nat) - 2) ∧ p.a = s.prev.a ∧
      WritesHashSlot s.cache cache p ∧ ChunkYields s [t] p cache 0) ∧
    FailsInside s [t]

/-- R97: LUMA, whole: red and blue move relative to the green delta. -/
def Obligations.LumaChunkStep : Prop :=
  ∀ (s : State) (t q : Byte), AtTag s → 128 ≤ t.toNat → t.toNat < 192 →
    (∃ (p : Pixel) (cache : Vector Pixel 64),
      MovedBy p.g s.prev.g ((t.toNat % 64 : Nat) - 32) ∧
      MovedBy p.r s.prev.r (((t.toNat % 64 : Nat) - 32) + ((q.toNat / 16 : Nat) - 8)) ∧
      MovedBy p.b s.prev.b (((t.toNat % 64 : Nat) - 32) + ((q.toNat % 16 : Nat) - 8)) ∧ p.a = s.prev.a ∧
      WritesHashSlot s.cache cache p ∧ ChunkYields s [t, q] p cache 0) ∧
    FailsInside s [t, q]

/-- R98: RUN, whole: `prev` is yielded now, the low six bits of the tag are the copies still to come, and no slot is
written. A run that reaches past pixel `npix - 1` is left over (R101: PHASE goes to DEC_END all the same). -/
def Obligations.RunChunkStep : Prop :=
  ∀ (s : State) (t : Byte), AtTag s → 192 ≤ t.toNat → t.toNat < 254 →
    ChunkYields s [t] s.prev s.cache (BitVec.ofNat 6 (t.toNat - 192)) ∧ FailsInside s [t]

/-- R92: run continuation reads no byte and touches no slot; the run counter falls by one. -/
def Obligations.RunContinuationReadsNothing : Prop :=
  ∀ (s : State) (sink : List SinkAnswer), s.host = [] → s.phase = .decChunks → s.offer = false → s.run ≠ 0 →
    s.pixelSink = .accept :: sink →
    ∃ run : BitVec 6, run.toNat + 1 = s.run.toNat ∧
      step s = .next { afterPixel s [] s.input sink s.prev with run := run }

/-- R43: a sink that is not ready holds the pixel back, for any number of steps, and then gets exactly that pixel; nothing
else is done meanwhile. The steps are the model's (log 5), and a pixel that waits is its `offer` (log 13). -/
def Obligations.SinkDelaysLoseNoPixel : Prop :=
  ∀ (m : Nat) (s : State) (sink : List SinkAnswer), s.host = [] → s.phase = .decChunks → s.offer = true →
    s.pixelSink = List.replicate m .wait ++ .accept :: sink →
    runs (m + 1) s { afterPixel s [] s.input sink s.prev with offer := false }

/-- R41, R159: input bytes that arrive late change nothing: a chunk whose bytes come in two parts has the effect it has when
they come at once. -/
def Obligations.LateBytesDoNotChangeAChunk : Prop :=
  ∀ (s : State) (first second : List Byte) (i : Instr) (rest : List InAnswer), AtTag s →
    decode (first ++ second) = .ok i [] → second ≠ [] →
    ∃ t, step { s with input := bytesIn (first ++ second) ++ rest } = .next t ∧
      runs 2 { s with input := bytesIn first ++ .wait :: (bytesIn second ++ rest) } t

/-- R145, R41, R43, R45, R46: where the channel a step needs has not answered, the block waits and nothing changes. -/
def Obligations.SilentChannelHoldsTheBlock : Prop :=
  ∀ s : State, s.host = [] →
    (s.phase = .decHeader ∨ s.phase = .decEnd → s.input = [] → step s = .next s) ∧
    (s.phase = .decChunks → s.offer = true → s.pixelSink = [] → step s = .next s) ∧
    (s.phase = .decChunks → s.offer = false → s.run = 0 → chunkComplete s.scratch = false → s.input = [] →
      step s = .next s) ∧
    (s.phase = .encHeader ∨ s.phase = .encEnd → s.byteSink = [] → step s = .next s) ∧
    (s.phase = .encChunks → s.cur = none → s.pixelSource = [] → step s = .next s) ∧
    (∀ p, s.phase = .encChunks → s.cur = some p → s.scratch ≠ [] → s.byteSink = [] → step s = .next s)

/-! ### End marker and header -/

/-- R100: the end marker is checked byte by byte as it is read; the first wrong or missing byte ends the operation. One byte
a step and `markAt` are the model's (log 5, log 13). -/
def Obligations.EndMarkerIsCheckedByteByByte : Prop :=
  ∀ (s : State) (rest : List InAnswer), s.host = [] → s.phase = .decEnd → s.markAt = 0 →
    let marker : List Byte := [0x00, 0x00, 0x00, 0x00, 0x00, 0x00, 0x00, 0x01]
    (s.input = bytesIn marker ++ rest →
      runs 8 s { s with input := rest, pos := s.pos + 8, markAt := 8, phase := .done }) ∧
    ∀ j, j < 8 →
      (∀ b, some b ≠ marker[j]? → s.input = bytesIn (marker.take j) ++ .byte b :: rest →
        runs (j + 1) s (failed .badEndMarker (s.pos + j) (b.setWidth 64) s.ioErr
          { s with input := rest, pos := s.pos + j + 1, markAt := j })) ∧
      (s.input = bytesIn (marker.take j) ++ .eof :: rest →
        runs (j + 1) s (failed .truncated (s.pos + j) 0 s.ioErr { s with input := rest, pos := s.pos + j, markAt := j })) ∧
      (∀ e, s.input = bytesIn (marker.take j) ++ .ioErr e :: rest →
        runs (j + 1) s (failed .ioError (s.pos + j) (Config.ioerrCode e) (some e)
          { s with input := rest, pos := s.pos + j, markAt := j }))

/-- R80: the magic is compared at once after its fourth byte; a wrong one ends the operation and is named by ERR_INFO. A
stream that ends or fails inside the magic reports that, whatever its first bytes are. The four byte values are the
supplement R61 marks as general knowledge (log 19); one byte a step is the model's (log 5). -/
def Obligations.WrongMagicEndsTheOperation : Prop :=
  ∀ (s : State) (o : Op) (m0 m1 m2 m3 : Byte) (rest : List InAnswer), o = .decode ∨ o = .decodeConfig →
    FreshDecode o s →
    let magic := [m0, m1, m2, m3]
    (magic ≠ [0x71, 0x6F, 0x69, 0x66] → s.input = bytesIn magic ++ rest →
      runs 4 s (failed .badMagic 0 (BitVec.ofNat 64 (bigEndian m0 m1 m2 m3)) none { s with input := rest, pos := 4 })) ∧
    ∀ j, j < 4 →
      (s.input = bytesIn (magic.take j) ++ .eof :: rest →
        runs (j + 1) s (failed .truncated j 0 none { s with input := rest, pos := j, scratch := magic.take j })) ∧
      (∀ e, s.input = bytesIn (magic.take j) ++ .ioErr e :: rest →
        runs (j + 1) s (failed .ioError j (Config.ioerrCode e) (some e)
          { s with input := rest, pos := j, scratch := magic.take j }))

/-- R82, R83, R84: the channels byte, then the colorspace byte, then the geometry are checked, each where its last byte
has been read, and the header registers hold what was read. The magic's bytes are those of R61 (log 19), and one byte a step
is the model's (log 5). -/
def Obligations.HeaderFieldsAreCheckedInOrder : Prop :=
  ∀ (s : State) (o : Op) (w0 w1 w2 w3 h0 h1 h2 h3 c f : Byte) (rest : List InAnswer),
    o = .decode ∨ o = .decodeConfig → FreshDecode o s →
    let w := bigEndian w0 w1 w2 w3
    let h := bigEndian h0 h1 h2 h3
    let named := { s with width := BitVec.ofNat 64 w, height := BitVec.ofNat 64 h, channels := c }
    let mask := (if w = 0 then 1 else 0) + (if h = 0 then 2 else 0) + (if w * h > s.maxPixels then 4 else 0)
    let upTo12 := [0x71, 0x6F, 0x69, 0x66, w0, w1, w2, w3, h0, h1, h2, h3, c]
    (s.input = bytesIn upTo12 ++ rest → ¬(c = 3 ∨ c = 4) →
      runs 13 s (failed .badChannels 12 (c.setWidth 64) none { named with input := rest, pos := 13 })) ∧
    (s.input = bytesIn (upTo12 ++ [f]) ++ rest → (c = 3 ∨ c = 4) → ¬(f = 0 ∨ f = 1) →
      runs 14 s (failed .badColorspace 13 (f.setWidth 64) none
        { named with colorspace := f, input := rest, pos := 14 })) ∧
    (s.input = bytesIn (upTo12 ++ [f]) ++ rest → (c = 3 ∨ c = 4) → (f = 0 ∨ f = 1) → mask ≠ 0 →
      runs 14 s (failed .badGeometry 4 (BitVec.ofNat 64 mask) none
        { named with colorspace := f, input := rest, pos := 14 }))

/-- R79, R86, R87, R90, R9, R11, R13: a good header is accepted. DECODE enters its chunk phase with the stream-start
state and `npix = w * h`; DECODE_CONFIG is done after exactly 14 bytes and leaves `prev`, `run` and the cache alone. The
magic's bytes are those of R61 (log 19), and one byte a step is the model's (log 5). -/
def Obligations.GoodHeaderIsAccepted : Prop :=
  ∀ (s : State) (o : Op) (w0 w1 w2 w3 h0 h1 h2 h3 c f : Byte) (rest : List InAnswer), FreshDecode o s →
    let w := bigEndian w0 w1 w2 w3
    let h := bigEndian h0 h1 h2 h3
    s.input = bytesIn [0x71, 0x6F, 0x69, 0x66, w0, w1, w2, w3, h0, h1, h2, h3, c, f] ++ rest →
    (c = 3 ∨ c = 4) → (f = 0 ∨ f = 1) → w ≠ 0 → h ≠ 0 → w * h ≤ s.maxPixels →
    let read := { s with
      input := rest, pos := 14, width := BitVec.ofNat 64 w, height := BitVec.ofNat 64 h, channels := c,
      colorspace := f, npix := w * h }
    (o = .decode →
      runs 14 s { read with
        phase := .decChunks, prev := ⟨0, 0, 0, 255⟩, run := 0, cache := Vector.replicate 64 ⟨0, 0, 0, 0⟩ }) ∧
    (o = .decodeConfig → runs 14 s { read with phase := .done })

/-- R85, R41: at any byte of the header the end of input gives TRUNCATED and a transport failure IO_ERROR, at `pos`;
every register written before keeps its value. -/
def Obligations.HeaderReadFailureEndsTheOperation : Prop :=
  ∀ (s : State) (rest : List InAnswer), s.host = [] → s.phase = .decHeader →
    (s.input = .eof :: rest → step s = .next (failed .truncated s.pos 0 s.ioErr { s with input := rest })) ∧
    (∀ e, s.input = .ioErr e :: rest →
      step s = .next (failed .ioError s.pos (Config.ioerrCode e) (some e) { s with input := rest }))

/-! ### The encoder -/

/-- R106, R131: ENCODE checks its options before any byte: the geometry, then CHANNELS, then COLORSPACE; WIDTH and HEIGHT
are read as signed 64-bit integers. Of the value written to CMD only bits 1:0 count, by R28's width and the model's reading of
the bits above it (log 10); `started` clears the model's own fields too (log 9, log 12, log 13), in the step of the write
(log 25). -/
def Obligations.EncodeOptionsAreCheckedInOrder : Prop :=
  ∀ (s : State) (v : Word64) (rest : List HostAction), s.host = .write 0 v :: rest → QuiescentPhase s.phase →
    v.toNat % 4 = 3 →
    let started := { s with
      host := rest, op := .encode, errCode := .none, errOffset := 0, errInfo := 0, ioErr := none, k := 0, npix := 0,
      pos := 0, opos := 0, scratch := [], offer := false, cur := none, markAt := 0, emitted := [], written := [] }
    let mask := (if s.width.toInt ≤ 0 ∨ s.width.toInt ≥ 2 ^ 32 then 1 else 0) +
      (if s.height.toInt ≤ 0 ∨ s.height.toInt ≥ 2 ^ 32 then 2 else 0)
    step s = .next
      (if mask ≠ 0 then failed .badGeometry 0 (BitVec.ofNat 64 mask) none started
       else if ¬(s.channels = 3 ∨ s.channels = 4) then failed .badChannels 0 (s.channels.setWidth 64) none started
       else if ¬(s.colorspace = 0 ∨ s.colorspace = 1) then
         failed .badColorspace 0 (s.colorspace.setWidth 64) none started
       else { started with npix := (s.width.toInt * s.height.toInt).toNat, phase := .encHeader })

/-- R88, R105: the 14 header bytes are written in order, and the chunk phase begins with the stream-start state; a refused
byte ends the operation with IO_ERROR at its offset, the bytes before it accepted. The magic's bytes are those of R61 (log 19),
and one byte a step is the model's (log 5). -/
def Obligations.HeaderBytesAreWrittenInOrder : Prop :=
  ∀ (s : State) (sink : List OutAnswer), s.host = [] → s.phase = .encHeader → s.opos = 0 →
    let byteAt (x : Word64) (j : Nat) : Byte := BitVec.ofNat 8 (x.toNat / 2 ^ (8 * j))
    let header : List Byte := [0x71, 0x6F, 0x69, 0x66,
      byteAt s.width 3, byteAt s.width 2, byteAt s.width 1, byteAt s.width 0,
      byteAt s.height 3, byteAt s.height 2, byteAt s.height 1, byteAt s.height 0, s.channels, s.colorspace]
    (s.byteSink = List.replicate 14 .ok ++ sink →
      runs 14 s { s with
        byteSink := sink, opos := 14, written := s.written ++ header, phase := .encChunks,
        prev := ⟨0, 0, 0, 255⟩, run := 0, cache := Vector.replicate 64 ⟨0, 0, 0, 0⟩ }) ∧
    ∀ j e, j < 14 → s.byteSink = List.replicate j .ok ++ .ioErr e :: sink →
      runs (j + 1) s (failed .ioError j (Config.ioerrCode e) (some e)
        { s with byteSink := sink, opos := j, written := s.written ++ header.take j })

/-- R108: a pixel equal to `prev` that neither fills the run nor ends the image only extends the run. -/
def Obligations.EqualPixelExtendsTheRun : Prop :=
  ∀ (s : State) (source : List SourceOffer), AtPixel s → s.pixelSource = .pixel s.prev :: source →
    s.run.toNat + 1 < 62 → s.k + 1 < s.npix →
    ∃ run : BitVec 6, run.toNat = s.run.toNat + 1 ∧ step s = .next (afterStep s source s.byteSink [] run)

/-- R109: at the 62nd repeat, or at the last pixel, the run is written as one RUN chunk and cleared. A refused byte ends the
operation, by the model's reading of R128 and R129, with the run counted and `k` not advanced (log 23), the byte still in the
scratch (R24, log 12) and the pixel in `cur` (log 13). -/
def Obligations.FullOrFinalRunIsFlushed : Prop :=
  ∀ (s : State) (source : List SourceOffer) (sink : List OutAnswer), AtPixel s → s.pixelSource = .pixel s.prev :: source →
    s.run.toNat + 1 ≤ 62 → (s.run.toNat + 1 = 62 ∨ s.k + 1 = s.npix) →
    (s.byteSink = .ok :: sink →
      step s = .next (afterStep s source sink [BitVec.ofNat 8 (0xC0 + s.run.toNat)] 0)) ∧
    ∀ e, s.byteSink = .ioErr e :: sink →
      step s = .next (failed .ioError s.opos (Config.ioerrCode e) (some e)
        { s with
          pixelSource := source, byteSink := sink, cur := some s.prev, run := BitVec.ofNat 6 (s.run.toNat + 1),
          scratch := [BitVec.ofNat 8 (0xC0 + s.run.toNat)] })

/-- R107, R110, R112 to R117: a pixel that differs from `prev` first flushes a pending run, then is written as the first
chunk of the strict priority order that fits, and only then becomes `prev` and enters the slot of its hash. The positions in
the DIFF byte and the order r, g, b are those of log 19. -/
def Obligations.DifferentPixelIsWrittenInPriorityOrder : Prop :=
  ∀ (s : State) (p : Pixel) (source : List SourceOffer) (sink : List OutAnswer), AtPixel s → p ≠ s.prev →
    s.run.toNat ≤ 62 → s.pixelSource = .pixel p :: source →
    let flush : List Byte := if s.run.toNat = 0 then [] else [BitVec.ofNat 8 (0xC0 + (s.run.toNat - 1))]
    let bytes := flush ++ chosenBytes s.prev s.cache p
    s.byteSink = List.replicate bytes.length .ok ++ sink →
    ∃ cache, WritesHashSlot s.cache cache p ∧
      step s = .next { afterStep s source sink bytes 0 with prev := p, cache := cache }

/-- R121, R129: a refused byte ends the step of a differing pixel with IO_ERROR at `opos`: bytes accepted before it stay
counted, an accepted RUN byte has cleared the run, and `prev`, the cache and `k` are as before. The scratch keeps what is left
of the chunk being written, the RUN chunk or the pixel's own (R24, log 12), and `cur` the pixel (log 13). -/
def Obligations.RefusedByteLeavesPrevAndCache : Prop :=
  ∀ (s : State) (p : Pixel) (source : List SourceOffer) (sink : List OutAnswer) (j : Nat) (e : Config.IoErrT),
    AtPixel s → p ≠ s.prev → s.run.toNat ≤ 62 → s.pixelSource = .pixel p :: source →
    let flush : List Byte := if s.run.toNat = 0 then [] else [BitVec.ofNat 8 (0xC0 + (s.run.toNat - 1))]
    let bytes := flush ++ chosenBytes s.prev s.cache p
    j < bytes.length → s.byteSink = List.replicate j .ok ++ .ioErr e :: sink →
    step s = .next (failed .ioError (s.opos + j) (Config.ioerrCode e) (some e)
      { s with
        pixelSource := source, byteSink := sink, opos := s.opos + j, written := s.written ++ bytes.take j,
        cur := some p, run := if j = 0 then s.run else 0,
        scratch := if j < flush.length then flush else bytes.drop j })

/-- R105, R121: the eight end-marker bytes are written in order and the operation is DONE only after the last is
accepted; a refused byte ends it with IO_ERROR. One byte a step and `markAt` are the model's (log 5, log 13). -/
def Obligations.EndMarkerIsWrittenLast : Prop :=
  ∀ (s : State) (sink : List OutAnswer), s.host = [] → s.phase = .encEnd → s.markAt = 0 →
    let marker : List Byte := [0x00, 0x00, 0x00, 0x00, 0x00, 0x00, 0x00, 0x01]
    (s.byteSink = List.replicate 8 .ok ++ sink →
      runs 8 s { s with
        byteSink := sink, opos := s.opos + 8, written := s.written ++ marker, markAt := 8, phase := .done }) ∧
    ∀ j e, j < 8 → s.byteSink = List.replicate j .ok ++ .ioErr e :: sink →
      runs (j + 1) s (failed .ioError (s.opos + j) (Config.ioerrCode e) (some e)
        { s with byteSink := sink, opos := s.opos + j, written := s.written ++ marker.take j, markAt := j })

/-- R119, R123: whatever chunk the encoder chooses for a pixel, decoding it from the same `prev` and cache yields that
pixel, and leaves the cache the encoder leaves. -/
def Obligations.ChosenChunkDecodesToItsPixel : Prop :=
  ∀ (s : State) (p : Pixel), p ≠ s.prev →
    ∃ i t, decode (chosenBytes s.prev s.cache p) = .ok i [] ∧ exec i s = .next t ∧
      t.prev = p ∧ WritesHashSlot s.cache t.cache p ∧ t.run = s.run

/-! ### The host interface -/

/-- R28, R21, R22, R126: what a read of each register returns, and that nothing but the host's own record changes (R137). -/
def Obligations.RegisterReadsReturnTheirFields : Prop :=
  ∀ (s : State) (n : Nat) (rest : List HostAction), s.host = .read n :: rest →
    ∃ v : Word64, step s = .next { s with host := rest, hostSeen := s.hostSeen ++ [(n, v)] } ∧
      (n = 0 → v = 0) ∧
      (n = 1 → v.toNat = phaseNumber s.phase + 16 * opNumber s.op + 256 * errNumber s.errCode) ∧
      (n = 2 → v = s.width) ∧ (n = 3 → v = s.height) ∧
      (n = 4 → v.toNat = s.channels.toNat + 256 * s.colorspace.toNat) ∧
      (n = 5 → v.toNat = s.k % 2 ^ 64) ∧
      (n = 6 → v.toNat = if s.op = .encode then s.opos % 2 ^ 64 else if s.op = .none then 0 else s.pos % 2 ^ 64) ∧
      (n = 7 → v = s.errOffset) ∧ (n = 8 → v = s.errInfo) ∧ (n = 9 → v.toNat = s.maxPixels % 2 ^ 64) ∧
      (10 ≤ n → v = 0)

/-- R28, R29, R157: while the block is busy no register write has any effect; while it is quiescent the writable
registers take their value and read-only and reserved ones do not, and CMD 0 does nothing. -/
def Obligations.RegisterWritesFollowTheirAccess : Prop :=
  ∀ (s : State) (n : Nat) (v : Word64) (rest : List HostAction), s.host = .write n v :: rest →
    let quiet := { s with host := rest }
    (1 ≤ phaseNumber s.phase ∧ phaseNumber s.phase ≤ 6 → step s = .next quiet) ∧
    (phaseNumber s.phase = 0 ∨ 7 ≤ phaseNumber s.phase →
      (n = 0 → v.toNat % 4 = 0 → step s = .next quiet) ∧
      (n = 2 → step s = .next { quiet with width := v }) ∧
      (n = 3 → step s = .next { quiet with height := v }) ∧
      (n = 4 → step s = .next { quiet with
        channels := BitVec.ofNat 8 v.toNat, colorspace := BitVec.ofNat 8 (v.toNat / 256) }) ∧
      (n = 1 ∨ 5 ≤ n → step s = .next quiet))

/-- R30, R29: a CMD write of 1 or 2 while quiescent starts DECODE or DECODE_CONFIG in one step: the error record, the
counters and the header registers are cleared and PHASE is DEC_HEADER; `prev`, `run` and the cache are kept. The model's own
fields and the scratch are cleared with them (log 9, log 10, log 12, log 13). -/
def Obligations.CommandStartsADecode : Prop :=
  ∀ (s : State) (v : Word64) (rest : List HostAction), s.host = .write 0 v :: rest → QuiescentPhase s.phase →
    (v.toNat % 4 = 1 ∨ v.toNat % 4 = 2) →
    step s = .next { s with
      host := rest, op := if v.toNat % 4 = 1 then .decode else .decodeConfig, phase := .decHeader,
      errCode := .none, errOffset := 0, errInfo := 0, ioErr := none, k := 0, npix := 0, pos := 0, opos := 0,
      width := 0, height := 0, channels := 0, colorspace := 0, scratch := [], offer := false, cur := none,
      markAt := 0, emitted := [], written := [] }

/-- R31, R146: a reset at any time, whatever the block was doing, leaves the values of R31, in one step; the hardwired
register 9 keeps its value. -/
def Obligations.ResetLeavesTheStatedValues : Prop :=
  ∀ (s : State) (rest : List HostAction), s.host = .reset :: rest →
    ∃ t, step s = .next t ∧ t.phase = .idle ∧ t.op = .none ∧ t.errCode = .none ∧ t.errOffset = 0 ∧ t.errInfo = 0 ∧
      t.width = 0 ∧ t.height = 0 ∧ t.channels = 0 ∧ t.colorspace = 0 ∧ t.k = 0 ∧ t.npix = 0 ∧ t.pos = 0 ∧
      t.opos = 0 ∧ t.prev = ⟨0, 0, 0, 255⟩ ∧ t.run = 0 ∧ (∀ i, t.cache.get i = ⟨0, 0, 0, 0⟩) ∧ t.scratch = [] ∧
      t.maxPixels = s.maxPixels ∧ t.host = rest

/-- R143, R42: in a quiescent phase the block does nothing, so after the end of an operation no byte is requested, no
byte is written and no pixel moves until a command or a reset. -/
def Obligations.QuiescentBlockDoesNothing : Prop :=
  ∀ (n : Nat) (s : State), s.host = [] → QuiescentPhase s.phase → runs n s s

/-! ### The whole machine -/

/-- 93_implementation_defined.md, R145: every state has a next state: no byte stream and no host action stops the
machine. -/
def Obligations.EveryStepAnswersANextState : Prop := ∀ s : State, ∃ t, step s = .next t

/-- R132: BAD_TAG is never raised, from any state. -/
def Obligations.BadTagIsNeverRaised : Prop :=
  ∀ s t : State, step s = .next t → t.errCode = .badTag → s.errCode = .badTag

/-- R127, R128, R129: a step of the block that ends in PHASE ERROR keeps OP, `k`, `npix`, `prev`, the cache and the pixels
emitted; TRUNCATED and IO_ERROR are recorded at the offset of the byte that failed, where `pos` or `opos` stands. -/
def Obligations.ErrorsArePrecise : Prop :=
  ∀ s t : State, s.host = [] → s.phase ≠ .error → step s = .next t → t.phase = .error →
    t.op = s.op ∧ t.k = s.k ∧ t.npix = s.npix ∧ t.prev = s.prev ∧ t.cache = s.cache ∧ t.emitted = s.emitted ∧
    (t.errCode = .truncated → t.errOffset = BitVec.ofNat 64 t.pos ∧ t.errInfo = 0 ∧ t.opos = s.opos) ∧
    (t.errCode = .ioError → ∃ e, t.ioErr = some e ∧ t.errInfo = Config.ioerrCode e ∧
      (t.errOffset = BitVec.ofNat 64 t.pos ∧ t.opos = s.opos ∨ t.errOffset = BitVec.ofNat 64 t.opos ∧ t.pos = s.pos))

/-- R14, R42, R33: a step of the block takes the answers of the input channel from the front, in order, and `pos` advances
by exactly one per byte consumed and by nothing else. -/
def Obligations.PosCountsTheBytesConsumed : Prop :=
  ∀ s t : State, s.host = [] → step s = .next t →
    ∃ consumed, s.input = consumed ++ t.input ∧ t.pos = s.pos + delivered consumed

/-- R17, R46, R15, R44: a step of the block takes the sink's answers in order, `opos` advances by one per byte accepted and
the record grows by as many; at most one pixel moves a step, and it goes to the end of the image. -/
def Obligations.OutputAdvancesInOrder : Prop :=
  ∀ s t : State, s.host = [] → step s = .next t →
    (∃ answered bytes, s.byteSink = answered ++ t.byteSink ∧ bytes.length = accepted answered ∧
      t.opos = s.opos + bytes.length ∧ t.written = s.written ++ bytes) ∧
    ((t.k = s.k ∧ t.emitted = s.emitted) ∨
      (t.k = s.k + 1 ∧ s.phase = .decChunks ∧ t.emitted = s.emitted ++ [t.prev]) ∨
      (t.k = s.k + 1 ∧ s.phase = .encChunks ∧ t.emitted = s.emitted))

/-- R89, R99, R120: in every phase after the header, CHANNELS and COLORSPACE change nothing the block does. -/
def Obligations.FormatBytesDoNotChangeTheStream : Prop :=
  ∀ (s t : State) (c f : Byte), s.host = [] →
    s.phase = .decChunks ∨ s.phase = .decEnd ∨ s.phase = .encChunks ∨ s.phase = .encEnd → step s = .next t →
    step { s with channels := c, colorspace := f } = .next { t with channels := c, colorspace := f }

/-- R26, R148, R5: what `prev`, `run` and the cache hold outside an operation's chunk phases is not observable: two states
that differ only there stay so, whatever the host and the channels do. -/
def Obligations.HiddenStateIsUnobservable : Prop :=
  ∀ s t s' : State, SameOutside s t → step s = .next s' → ∃ t', step t = .next t' ∧ SameOutside s' t'

/-! ### Invariants -/

/-- The state after reset is good. -/
def Obligations.ResetStateIsGood : Prop := Inv State.reset

/-- R37: every step keeps the cache's slots consistent with their hashes. -/
def Obligations.CacheSlotsStayConsistent : Prop := ∀ s t : State, CacheInv s → step s = .next t → CacheInv t

/-- R23, R127: every step keeps the error record consistent with PHASE. -/
def Obligations.ErrorRecordStaysConsistent : Prop := ∀ s t : State, ErrorInv s → step s = .next t → ErrorInv t

/-- R21, R22, R15, R16, R90, R105: every step keeps OP, PHASE and the counters consistent, and the header validated while
the stream moves. -/
def Obligations.PhaseAndCountersStayConsistent : Prop :=
  ∀ s t : State, ControlInv s → CountInv s → GeometryInv s → step s = .next t →
    ControlInv t ∧ CountInv t ∧ GeometryInv t

/-- R12, R109, R118: every step keeps the run counter in its range, and no run is pending when the end marker is
written. -/
def Obligations.RunCounterStaysInRange : Prop :=
  ∀ s t : State, CountInv s → RunInv s → step s = .next t → RunInv t

/-- R90, R124, R24: every step keeps a good state good; so a DECODE never reads more than `22 + 5 * npix` bytes and an
ENCODE never writes more. -/
def Obligations.GoodStatesStayGood : Prop :=
  ∀ s t : State, Inv s → step s = .next t →
    Inv t ∧ (t.op = .decode → t.pos ≤ 22 + 5 * t.npix) ∧ (t.op = .encode → t.opos ≤ 22 + 5 * t.npix)

/-! ### Whole operations -/

/-- R90, R145: a DECODE whose input channel answers every request without delay and whose sink accepts every pixel ends,
in DONE or ERROR, within `22 + MAX_PIXELS` steps of the model (log 5). -/
def Obligations.DecodeEndsWhenItsChannelsAnswer : Prop :=
  ∀ (s : State) (sink : List SinkAnswer), FreshDecode .decode s →
    (∀ a ∈ s.input, a ≠ .wait) → 22 + 5 * s.maxPixels ≤ s.input.length →
    s.pixelSink = List.replicate s.maxPixels .accept ++ sink →
    ∃ t, runs (22 + s.maxPixels) s t ∧ (t.phase = .done ∨ t.phase = .error)

/-- R105, R145: an ENCODE whose source offers its pixels and whose sink accepts every byte, both without delay, is DONE
after `22 + npix` steps of the model (log 5). -/
def Obligations.EncodeCompletesWhenItsChannelsServe : Prop :=
  ∀ (s : State) (pixels : List Pixel) (sink : List OutAnswer) (source : List SourceOffer), FreshEncode s →
    pixels.length = s.npix → s.pixelSource = pixels.map .pixel ++ source →
    s.byteSink = List.replicate (22 + 6 * s.npix) .ok ++ sink →
    ∃ t, runs (22 + s.npix) s t ∧ t.phase = .done ∧ t.k = s.npix ∧ t.pixelSource = source

/-- R122, R123, R102, R84: for every ENCODE that ends DONE, whatever delays its channels made, a DECODE of exactly the
bytes written ends DONE, if the image is within MAX_PIXELS, with the same header and the same pixels in the same order,
and with the encoder's `prev` and cache, slot for slot; no byte after the marker is read. If it is not, the DECODE ends
with BAD_GEOMETRY and ERR_INFO 4. -/
def Obligations.DecodingAnEncodedImageGivesItBack : Prop :=
  ∀ (n : Nat) (s t d : State) (rest : List InAnswer) (sink : List SinkAnswer), FreshEncode s → runs n s t → t.phase = .done →
    FreshDecode .decode d → d.input = bytesIn t.written ++ rest →
    d.pixelSink = List.replicate s.npix .accept ++ sink →
    (s.npix ≤ d.maxPixels →
      ∃ m u, runs m d u ∧ u.phase = .done ∧ u.width = s.width ∧ u.height = s.height ∧ u.channels = s.channels ∧
        u.colorspace = s.colorspace ∧ u.emitted = (offered s.pixelSource).take s.npix ∧ u.emitted.length = s.npix ∧
        u.prev = t.prev ∧ u.cache = t.cache ∧ u.pos = t.written.length ∧ u.input = rest) ∧
    (d.maxPixels < s.npix →
      ∃ m u, runs m d u ∧ u.phase = .error ∧ u.errCode = .badGeometry ∧ u.errInfo = 4 ∧ u.emitted = [])
end

