-- ==== Sys2Proof/Laws/State.lean ====
section
/-! SUPPORT. One lemma per field per update of State, each true by rfl: no later proof unfolds a record update. -/

namespace Sys2Proof.Machine

/-! ### writePixel -/

@[simp] theorem writePixel_prev (p : Pixel) (s : State) : (writePixel p s).prev = p := rfl
@[simp] theorem writePixel_run (p : Pixel) (s : State) : (writePixel p s).run = s.run := rfl
@[simp] theorem writePixel_cache (p : Pixel) (s : State) : (writePixel p s).cache = cacheWrite s.cache p := rfl
@[simp] theorem writePixel_scratch (p : Pixel) (s : State) : (writePixel p s).scratch = s.scratch := rfl
@[simp] theorem writePixel_pos (p : Pixel) (s : State) : (writePixel p s).pos = s.pos := rfl
@[simp] theorem writePixel_k (p : Pixel) (s : State) : (writePixel p s).k = s.k := rfl
@[simp] theorem writePixel_npix (p : Pixel) (s : State) : (writePixel p s).npix = s.npix := rfl
@[simp] theorem writePixel_opos (p : Pixel) (s : State) : (writePixel p s).opos = s.opos := rfl
@[simp] theorem writePixel_width (p : Pixel) (s : State) : (writePixel p s).width = s.width := rfl
@[simp] theorem writePixel_height (p : Pixel) (s : State) : (writePixel p s).height = s.height := rfl
@[simp] theorem writePixel_channels (p : Pixel) (s : State) : (writePixel p s).channels = s.channels := rfl
@[simp] theorem writePixel_colorspace (p : Pixel) (s : State) : (writePixel p s).colorspace = s.colorspace := rfl
@[simp] theorem writePixel_op (p : Pixel) (s : State) : (writePixel p s).op = s.op := rfl
@[simp] theorem writePixel_phase (p : Pixel) (s : State) : (writePixel p s).phase = s.phase := rfl
@[simp] theorem writePixel_errCode (p : Pixel) (s : State) : (writePixel p s).errCode = s.errCode := rfl
@[simp] theorem writePixel_errOffset (p : Pixel) (s : State) : (writePixel p s).errOffset = s.errOffset := rfl
@[simp] theorem writePixel_errInfo (p : Pixel) (s : State) : (writePixel p s).errInfo = s.errInfo := rfl
@[simp] theorem writePixel_ioErr (p : Pixel) (s : State) : (writePixel p s).ioErr = s.ioErr := rfl
@[simp] theorem writePixel_maxPixels (p : Pixel) (s : State) : (writePixel p s).maxPixels = s.maxPixels := rfl
@[simp] theorem writePixel_offer (p : Pixel) (s : State) : (writePixel p s).offer = s.offer := rfl
@[simp] theorem writePixel_cur (p : Pixel) (s : State) : (writePixel p s).cur = s.cur := rfl
@[simp] theorem writePixel_markAt (p : Pixel) (s : State) : (writePixel p s).markAt = s.markAt := rfl
@[simp] theorem writePixel_input (p : Pixel) (s : State) : (writePixel p s).input = s.input := rfl
@[simp] theorem writePixel_pixelSink (p : Pixel) (s : State) : (writePixel p s).pixelSink = s.pixelSink := rfl
@[simp] theorem writePixel_emitted (p : Pixel) (s : State) : (writePixel p s).emitted = s.emitted := rfl
@[simp] theorem writePixel_pixelSource (p : Pixel) (s : State) : (writePixel p s).pixelSource = s.pixelSource := rfl
@[simp] theorem writePixel_byteSink (p : Pixel) (s : State) : (writePixel p s).byteSink = s.byteSink := rfl
@[simp] theorem writePixel_written (p : Pixel) (s : State) : (writePixel p s).written = s.written := rfl
@[simp] theorem writePixel_host (p : Pixel) (s : State) : (writePixel p s).host = s.host := rfl
@[simp] theorem writePixel_hostSeen (p : Pixel) (s : State) : (writePixel p s).hostSeen = s.hostSeen := rfl

/-! ### initStream -/

@[simp] theorem initStream_prev (s : State) : (initStream s).prev = Pixel.streamStart := rfl
@[simp] theorem initStream_run (s : State) : (initStream s).run = 0 := rfl
@[simp] theorem initStream_cache (s : State) : (initStream s).cache = Vector.replicate 64 Pixel.zero := rfl
@[simp] theorem initStream_scratch (s : State) : (initStream s).scratch = s.scratch := rfl
@[simp] theorem initStream_pos (s : State) : (initStream s).pos = s.pos := rfl
@[simp] theorem initStream_k (s : State) : (initStream s).k = s.k := rfl
@[simp] theorem initStream_npix (s : State) : (initStream s).npix = s.npix := rfl
@[simp] theorem initStream_opos (s : State) : (initStream s).opos = s.opos := rfl
@[simp] theorem initStream_width (s : State) : (initStream s).width = s.width := rfl
@[simp] theorem initStream_height (s : State) : (initStream s).height = s.height := rfl
@[simp] theorem initStream_channels (s : State) : (initStream s).channels = s.channels := rfl
@[simp] theorem initStream_colorspace (s : State) : (initStream s).colorspace = s.colorspace := rfl
@[simp] theorem initStream_op (s : State) : (initStream s).op = s.op := rfl
@[simp] theorem initStream_phase (s : State) : (initStream s).phase = s.phase := rfl
@[simp] theorem initStream_errCode (s : State) : (initStream s).errCode = s.errCode := rfl
@[simp] theorem initStream_errOffset (s : State) : (initStream s).errOffset = s.errOffset := rfl
@[simp] theorem initStream_errInfo (s : State) : (initStream s).errInfo = s.errInfo := rfl
@[simp] theorem initStream_ioErr (s : State) : (initStream s).ioErr = s.ioErr := rfl
@[simp] theorem initStream_maxPixels (s : State) : (initStream s).maxPixels = s.maxPixels := rfl
@[simp] theorem initStream_offer (s : State) : (initStream s).offer = s.offer := rfl
@[simp] theorem initStream_cur (s : State) : (initStream s).cur = s.cur := rfl
@[simp] theorem initStream_markAt (s : State) : (initStream s).markAt = s.markAt := rfl
@[simp] theorem initStream_input (s : State) : (initStream s).input = s.input := rfl
@[simp] theorem initStream_pixelSink (s : State) : (initStream s).pixelSink = s.pixelSink := rfl
@[simp] theorem initStream_emitted (s : State) : (initStream s).emitted = s.emitted := rfl
@[simp] theorem initStream_pixelSource (s : State) : (initStream s).pixelSource = s.pixelSource := rfl
@[simp] theorem initStream_byteSink (s : State) : (initStream s).byteSink = s.byteSink := rfl
@[simp] theorem initStream_written (s : State) : (initStream s).written = s.written := rfl
@[simp] theorem initStream_host (s : State) : (initStream s).host = s.host := rfl
@[simp] theorem initStream_hostSeen (s : State) : (initStream s).hostSeen = s.hostSeen := rfl

/-! ### offerPixel -/

@[simp] theorem offerPixel_prev (s : State) : (offerPixel s).prev = s.prev := rfl
@[simp] theorem offerPixel_run (s : State) : (offerPixel s).run = s.run := rfl
@[simp] theorem offerPixel_cache (s : State) : (offerPixel s).cache = s.cache := rfl
@[simp] theorem offerPixel_scratch (s : State) : (offerPixel s).scratch = [] := rfl
@[simp] theorem offerPixel_pos (s : State) : (offerPixel s).pos = s.pos := rfl
@[simp] theorem offerPixel_k (s : State) : (offerPixel s).k = s.k := rfl
@[simp] theorem offerPixel_npix (s : State) : (offerPixel s).npix = s.npix := rfl
@[simp] theorem offerPixel_opos (s : State) : (offerPixel s).opos = s.opos := rfl
@[simp] theorem offerPixel_width (s : State) : (offerPixel s).width = s.width := rfl
@[simp] theorem offerPixel_height (s : State) : (offerPixel s).height = s.height := rfl
@[simp] theorem offerPixel_channels (s : State) : (offerPixel s).channels = s.channels := rfl
@[simp] theorem offerPixel_colorspace (s : State) : (offerPixel s).colorspace = s.colorspace := rfl
@[simp] theorem offerPixel_op (s : State) : (offerPixel s).op = s.op := rfl
@[simp] theorem offerPixel_phase (s : State) : (offerPixel s).phase = s.phase := rfl
@[simp] theorem offerPixel_errCode (s : State) : (offerPixel s).errCode = s.errCode := rfl
@[simp] theorem offerPixel_errOffset (s : State) : (offerPixel s).errOffset = s.errOffset := rfl
@[simp] theorem offerPixel_errInfo (s : State) : (offerPixel s).errInfo = s.errInfo := rfl
@[simp] theorem offerPixel_ioErr (s : State) : (offerPixel s).ioErr = s.ioErr := rfl
@[simp] theorem offerPixel_maxPixels (s : State) : (offerPixel s).maxPixels = s.maxPixels := rfl
@[simp] theorem offerPixel_offer (s : State) : (offerPixel s).offer = true := rfl
@[simp] theorem offerPixel_cur (s : State) : (offerPixel s).cur = s.cur := rfl
@[simp] theorem offerPixel_markAt (s : State) : (offerPixel s).markAt = s.markAt := rfl
@[simp] theorem offerPixel_input (s : State) : (offerPixel s).input = s.input := rfl
@[simp] theorem offerPixel_pixelSink (s : State) : (offerPixel s).pixelSink = s.pixelSink := rfl
@[simp] theorem offerPixel_emitted (s : State) : (offerPixel s).emitted = s.emitted := rfl
@[simp] theorem offerPixel_pixelSource (s : State) : (offerPixel s).pixelSource = s.pixelSource := rfl
@[simp] theorem offerPixel_byteSink (s : State) : (offerPixel s).byteSink = s.byteSink := rfl
@[simp] theorem offerPixel_written (s : State) : (offerPixel s).written = s.written := rfl
@[simp] theorem offerPixel_host (s : State) : (offerPixel s).host = s.host := rfl
@[simp] theorem offerPixel_hostSeen (s : State) : (offerPixel s).hostSeen = s.hostSeen := rfl

/-! ### runContinue -/

@[simp] theorem runContinue_prev (s : State) : (runContinue s).prev = s.prev := rfl
@[simp] theorem runContinue_run (s : State) : (runContinue s).run = s.run - 1 := rfl
@[simp] theorem runContinue_cache (s : State) : (runContinue s).cache = s.cache := rfl
@[simp] theorem runContinue_scratch (s : State) : (runContinue s).scratch = s.scratch := rfl
@[simp] theorem runContinue_pos (s : State) : (runContinue s).pos = s.pos := rfl
@[simp] theorem runContinue_k (s : State) : (runContinue s).k = s.k := rfl
@[simp] theorem runContinue_npix (s : State) : (runContinue s).npix = s.npix := rfl
@[simp] theorem runContinue_opos (s : State) : (runContinue s).opos = s.opos := rfl
@[simp] theorem runContinue_width (s : State) : (runContinue s).width = s.width := rfl
@[simp] theorem runContinue_height (s : State) : (runContinue s).height = s.height := rfl
@[simp] theorem runContinue_channels (s : State) : (runContinue s).channels = s.channels := rfl
@[simp] theorem runContinue_colorspace (s : State) : (runContinue s).colorspace = s.colorspace := rfl
@[simp] theorem runContinue_op (s : State) : (runContinue s).op = s.op := rfl
@[simp] theorem runContinue_phase (s : State) : (runContinue s).phase = s.phase := rfl
@[simp] theorem runContinue_errCode (s : State) : (runContinue s).errCode = s.errCode := rfl
@[simp] theorem runContinue_errOffset (s : State) : (runContinue s).errOffset = s.errOffset := rfl
@[simp] theorem runContinue_errInfo (s : State) : (runContinue s).errInfo = s.errInfo := rfl
@[simp] theorem runContinue_ioErr (s : State) : (runContinue s).ioErr = s.ioErr := rfl
@[simp] theorem runContinue_maxPixels (s : State) : (runContinue s).maxPixels = s.maxPixels := rfl
@[simp] theorem runContinue_offer (s : State) : (runContinue s).offer = true := rfl
@[simp] theorem runContinue_cur (s : State) : (runContinue s).cur = s.cur := rfl
@[simp] theorem runContinue_markAt (s : State) : (runContinue s).markAt = s.markAt := rfl
@[simp] theorem runContinue_input (s : State) : (runContinue s).input = s.input := rfl
@[simp] theorem runContinue_pixelSink (s : State) : (runContinue s).pixelSink = s.pixelSink := rfl
@[simp] theorem runContinue_emitted (s : State) : (runContinue s).emitted = s.emitted := rfl
@[simp] theorem runContinue_pixelSource (s : State) : (runContinue s).pixelSource = s.pixelSource := rfl
@[simp] theorem runContinue_byteSink (s : State) : (runContinue s).byteSink = s.byteSink := rfl
@[simp] theorem runContinue_written (s : State) : (runContinue s).written = s.written := rfl
@[simp] theorem runContinue_host (s : State) : (runContinue s).host = s.host := rfl
@[simp] theorem runContinue_hostSeen (s : State) : (runContinue s).hostSeen = s.hostSeen := rfl

/-! ### raise -/

@[simp] theorem raise_prev (c : ErrCode) (o : Nat) (i : Word64) (s : State) : (raise c o i s).prev = s.prev := rfl
@[simp] theorem raise_run (c : ErrCode) (o : Nat) (i : Word64) (s : State) : (raise c o i s).run = s.run := rfl
@[simp] theorem raise_cache (c : ErrCode) (o : Nat) (i : Word64) (s : State) : (raise c o i s).cache = s.cache := rfl
@[simp] theorem raise_scratch (c : ErrCode) (o : Nat) (i : Word64) (s : State) :
    (raise c o i s).scratch = s.scratch := rfl
@[simp] theorem raise_pos (c : ErrCode) (o : Nat) (i : Word64) (s : State) : (raise c o i s).pos = s.pos := rfl
@[simp] theorem raise_k (c : ErrCode) (o : Nat) (i : Word64) (s : State) : (raise c o i s).k = s.k := rfl
@[simp] theorem raise_npix (c : ErrCode) (o : Nat) (i : Word64) (s : State) : (raise c o i s).npix = s.npix := rfl
@[simp] theorem raise_opos (c : ErrCode) (o : Nat) (i : Word64) (s : State) : (raise c o i s).opos = s.opos := rfl
@[simp] theorem raise_width (c : ErrCode) (o : Nat) (i : Word64) (s : State) : (raise c o i s).width = s.width := rfl
@[simp] theorem raise_height (c : ErrCode) (o : Nat) (i : Word64) (s : State) :
    (raise c o i s).height = s.height := rfl
@[simp] theorem raise_channels (c : ErrCode) (o : Nat) (i : Word64) (s : State) :
    (raise c o i s).channels = s.channels := rfl
@[simp] theorem raise_colorspace (c : ErrCode) (o : Nat) (i : Word64) (s : State) :
    (raise c o i s).colorspace = s.colorspace := rfl
@[simp] theorem raise_op (c : ErrCode) (o : Nat) (i : Word64) (s : State) : (raise c o i s).op = s.op := rfl
@[simp] theorem raise_phase (c : ErrCode) (o : Nat) (i : Word64) (s : State) : (raise c o i s).phase = .error := rfl
@[simp] theorem raise_errCode (c : ErrCode) (o : Nat) (i : Word64) (s : State) : (raise c o i s).errCode = c := rfl
@[simp] theorem raise_errOffset (c : ErrCode) (o : Nat) (i : Word64) (s : State) :
    (raise c o i s).errOffset = BitVec.ofNat 64 o := rfl
@[simp] theorem raise_errInfo (c : ErrCode) (o : Nat) (i : Word64) (s : State) : (raise c o i s).errInfo = i := rfl
@[simp] theorem raise_ioErr (c : ErrCode) (o : Nat) (i : Word64) (s : State) : (raise c o i s).ioErr = s.ioErr := rfl
@[simp] theorem raise_maxPixels (c : ErrCode) (o : Nat) (i : Word64) (s : State) :
    (raise c o i s).maxPixels = s.maxPixels := rfl
@[simp] theorem raise_offer (c : ErrCode) (o : Nat) (i : Word64) (s : State) : (raise c o i s).offer = s.offer := rfl
@[simp] theorem raise_cur (c : ErrCode) (o : Nat) (i : Word64) (s : State) : (raise c o i s).cur = s.cur := rfl
@[simp] theorem raise_markAt (c : ErrCode) (o : Nat) (i : Word64) (s : State) :
    (raise c o i s).markAt = s.markAt := rfl
@[simp] theorem raise_input (c : ErrCode) (o : Nat) (i : Word64) (s : State) : (raise c o i s).input = s.input := rfl
@[simp] theorem raise_pixelSink (c : ErrCode) (o : Nat) (i : Word64) (s : State) :
    (raise c o i s).pixelSink = s.pixelSink := rfl
@[simp] theorem raise_emitted (c : ErrCode) (o : Nat) (i : Word64) (s : State) :
    (raise c o i s).emitted = s.emitted := rfl
@[simp] theorem raise_pixelSource (c : ErrCode) (o : Nat) (i : Word64) (s : State) :
    (raise c o i s).pixelSource = s.pixelSource := rfl
@[simp] theorem raise_byteSink (c : ErrCode) (o : Nat) (i : Word64) (s : State) :
    (raise c o i s).byteSink = s.byteSink := rfl
@[simp] theorem raise_written (c : ErrCode) (o : Nat) (i : Word64) (s : State) :
    (raise c o i s).written = s.written := rfl
@[simp] theorem raise_host (c : ErrCode) (o : Nat) (i : Word64) (s : State) : (raise c o i s).host = s.host := rfl
@[simp] theorem raise_hostSeen (c : ErrCode) (o : Nat) (i : Word64) (s : State) :
    (raise c o i s).hostSeen = s.hostSeen := rfl

/-! ### raiseIo -/

@[simp] theorem raiseIo_prev (e : Config.IoErrT) (o : Nat) (s : State) : (raiseIo e o s).prev = s.prev := rfl
@[simp] theorem raiseIo_run (e : Config.IoErrT) (o : Nat) (s : State) : (raiseIo e o s).run = s.run := rfl
@[simp] theorem raiseIo_cache (e : Config.IoErrT) (o : Nat) (s : State) : (raiseIo e o s).cache = s.cache := rfl
@[simp] theorem raiseIo_scratch (e : Config.IoErrT) (o : Nat) (s : State) : (raiseIo e o s).scratch = s.scratch := rfl
@[simp] theorem raiseIo_pos (e : Config.IoErrT) (o : Nat) (s : State) : (raiseIo e o s).pos = s.pos := rfl
@[simp] theorem raiseIo_k (e : Config.IoErrT) (o : Nat) (s : State) : (raiseIo e o s).k = s.k := rfl
@[simp] theorem raiseIo_npix (e : Config.IoErrT) (o : Nat) (s : State) : (raiseIo e o s).npix = s.npix := rfl
@[simp] theorem raiseIo_opos (e : Config.IoErrT) (o : Nat) (s : State) : (raiseIo e o s).opos = s.opos := rfl
@[simp] theorem raiseIo_width (e : Config.IoErrT) (o : Nat) (s : State) : (raiseIo e o s).width = s.width := rfl
@[simp] theorem raiseIo_height (e : Config.IoErrT) (o : Nat) (s : State) : (raiseIo e o s).height = s.height := rfl
@[simp] theorem raiseIo_channels (e : Config.IoErrT) (o : Nat) (s : State) :
    (raiseIo e o s).channels = s.channels := rfl
@[simp] theorem raiseIo_colorspace (e : Config.IoErrT) (o : Nat) (s : State) :
    (raiseIo e o s).colorspace = s.colorspace := rfl
@[simp] theorem raiseIo_op (e : Config.IoErrT) (o : Nat) (s : State) : (raiseIo e o s).op = s.op := rfl
@[simp] theorem raiseIo_phase (e : Config.IoErrT) (o : Nat) (s : State) : (raiseIo e o s).phase = .error := rfl
@[simp] theorem raiseIo_errCode (e : Config.IoErrT) (o : Nat) (s : State) : (raiseIo e o s).errCode = .ioError := rfl
@[simp] theorem raiseIo_errOffset (e : Config.IoErrT) (o : Nat) (s : State) :
    (raiseIo e o s).errOffset = BitVec.ofNat 64 o := rfl
@[simp] theorem raiseIo_errInfo (e : Config.IoErrT) (o : Nat) (s : State) :
    (raiseIo e o s).errInfo = Config.ioerrCode e := rfl
@[simp] theorem raiseIo_ioErr (e : Config.IoErrT) (o : Nat) (s : State) : (raiseIo e o s).ioErr = some e := rfl
@[simp] theorem raiseIo_maxPixels (e : Config.IoErrT) (o : Nat) (s : State) :
    (raiseIo e o s).maxPixels = s.maxPixels := rfl
@[simp] theorem raiseIo_offer (e : Config.IoErrT) (o : Nat) (s : State) : (raiseIo e o s).offer = s.offer := rfl
@[simp] theorem raiseIo_cur (e : Config.IoErrT) (o : Nat) (s : State) : (raiseIo e o s).cur = s.cur := rfl
@[simp] theorem raiseIo_markAt (e : Config.IoErrT) (o : Nat) (s : State) : (raiseIo e o s).markAt = s.markAt := rfl
@[simp] theorem raiseIo_input (e : Config.IoErrT) (o : Nat) (s : State) : (raiseIo e o s).input = s.input := rfl
@[simp] theorem raiseIo_pixelSink (e : Config.IoErrT) (o : Nat) (s : State) :
    (raiseIo e o s).pixelSink = s.pixelSink := rfl
@[simp] theorem raiseIo_emitted (e : Config.IoErrT) (o : Nat) (s : State) : (raiseIo e o s).emitted = s.emitted := rfl
@[simp] theorem raiseIo_pixelSource (e : Config.IoErrT) (o : Nat) (s : State) :
    (raiseIo e o s).pixelSource = s.pixelSource := rfl
@[simp] theorem raiseIo_byteSink (e : Config.IoErrT) (o : Nat) (s : State) :
    (raiseIo e o s).byteSink = s.byteSink := rfl
@[simp] theorem raiseIo_written (e : Config.IoErrT) (o : Nat) (s : State) : (raiseIo e o s).written = s.written := rfl
@[simp] theorem raiseIo_host (e : Config.IoErrT) (o : Nat) (s : State) : (raiseIo e o s).host = s.host := rfl
@[simp] theorem raiseIo_hostSeen (e : Config.IoErrT) (o : Nat) (s : State) :
    (raiseIo e o s).hostSeen = s.hostSeen := rfl

/-! ### pixelAccepted -/

@[simp] theorem pixelAccepted_prev (s : State) : (pixelAccepted s).prev = s.prev := rfl
@[simp] theorem pixelAccepted_run (s : State) : (pixelAccepted s).run = s.run := rfl
@[simp] theorem pixelAccepted_cache (s : State) : (pixelAccepted s).cache = s.cache := rfl
@[simp] theorem pixelAccepted_scratch (s : State) : (pixelAccepted s).scratch = s.scratch := rfl
@[simp] theorem pixelAccepted_pos (s : State) : (pixelAccepted s).pos = s.pos := rfl
@[simp] theorem pixelAccepted_k (s : State) : (pixelAccepted s).k = s.k + 1 := rfl
@[simp] theorem pixelAccepted_npix (s : State) : (pixelAccepted s).npix = s.npix := rfl
@[simp] theorem pixelAccepted_opos (s : State) : (pixelAccepted s).opos = s.opos := rfl
@[simp] theorem pixelAccepted_width (s : State) : (pixelAccepted s).width = s.width := rfl
@[simp] theorem pixelAccepted_height (s : State) : (pixelAccepted s).height = s.height := rfl
@[simp] theorem pixelAccepted_channels (s : State) : (pixelAccepted s).channels = s.channels := rfl
@[simp] theorem pixelAccepted_colorspace (s : State) : (pixelAccepted s).colorspace = s.colorspace := rfl
@[simp] theorem pixelAccepted_op (s : State) : (pixelAccepted s).op = s.op := rfl
@[simp] theorem pixelAccepted_phase (s : State) :
    (pixelAccepted s).phase = if s.k + 1 < s.npix then s.phase else .decEnd := rfl
@[simp] theorem pixelAccepted_errCode (s : State) : (pixelAccepted s).errCode = s.errCode := rfl
@[simp] theorem pixelAccepted_errOffset (s : State) : (pixelAccepted s).errOffset = s.errOffset := rfl
@[simp] theorem pixelAccepted_errInfo (s : State) : (pixelAccepted s).errInfo = s.errInfo := rfl
@[simp] theorem pixelAccepted_ioErr (s : State) : (pixelAccepted s).ioErr = s.ioErr := rfl
@[simp] theorem pixelAccepted_maxPixels (s : State) : (pixelAccepted s).maxPixels = s.maxPixels := rfl
@[simp] theorem pixelAccepted_offer (s : State) : (pixelAccepted s).offer = false := rfl
@[simp] theorem pixelAccepted_cur (s : State) : (pixelAccepted s).cur = s.cur := rfl
@[simp] theorem pixelAccepted_markAt (s : State) : (pixelAccepted s).markAt = s.markAt := rfl
@[simp] theorem pixelAccepted_input (s : State) : (pixelAccepted s).input = s.input := rfl
@[simp] theorem pixelAccepted_pixelSink (s : State) : (pixelAccepted s).pixelSink = s.pixelSink := rfl
@[simp] theorem pixelAccepted_emitted (s : State) : (pixelAccepted s).emitted = s.emitted ++ [s.prev] := rfl
@[simp] theorem pixelAccepted_pixelSource (s : State) : (pixelAccepted s).pixelSource = s.pixelSource := rfl
@[simp] theorem pixelAccepted_byteSink (s : State) : (pixelAccepted s).byteSink = s.byteSink := rfl
@[simp] theorem pixelAccepted_written (s : State) : (pixelAccepted s).written = s.written := rfl
@[simp] theorem pixelAccepted_host (s : State) : (pixelAccepted s).host = s.host := rfl
@[simp] theorem pixelAccepted_hostSeen (s : State) : (pixelAccepted s).hostSeen = s.hostSeen := rfl

/-! ### loadRun -/

@[simp] theorem loadRun_prev (s : State) : (loadRun s).prev = s.prev := rfl
@[simp] theorem loadRun_run (s : State) : (loadRun s).run = s.run := rfl
@[simp] theorem loadRun_cache (s : State) : (loadRun s).cache = s.cache := rfl
@[simp] theorem loadRun_scratch (s : State) : (loadRun s).scratch = encRun s.run.toNat := rfl
@[simp] theorem loadRun_pos (s : State) : (loadRun s).pos = s.pos := rfl
@[simp] theorem loadRun_k (s : State) : (loadRun s).k = s.k := rfl
@[simp] theorem loadRun_npix (s : State) : (loadRun s).npix = s.npix := rfl
@[simp] theorem loadRun_opos (s : State) : (loadRun s).opos = s.opos := rfl
@[simp] theorem loadRun_width (s : State) : (loadRun s).width = s.width := rfl
@[simp] theorem loadRun_height (s : State) : (loadRun s).height = s.height := rfl
@[simp] theorem loadRun_channels (s : State) : (loadRun s).channels = s.channels := rfl
@[simp] theorem loadRun_colorspace (s : State) : (loadRun s).colorspace = s.colorspace := rfl
@[simp] theorem loadRun_op (s : State) : (loadRun s).op = s.op := rfl
@[simp] theorem loadRun_phase (s : State) : (loadRun s).phase = s.phase := rfl
@[simp] theorem loadRun_errCode (s : State) : (loadRun s).errCode = s.errCode := rfl
@[simp] theorem loadRun_errOffset (s : State) : (loadRun s).errOffset = s.errOffset := rfl
@[simp] theorem loadRun_errInfo (s : State) : (loadRun s).errInfo = s.errInfo := rfl
@[simp] theorem loadRun_ioErr (s : State) : (loadRun s).ioErr = s.ioErr := rfl
@[simp] theorem loadRun_maxPixels (s : State) : (loadRun s).maxPixels = s.maxPixels := rfl
@[simp] theorem loadRun_offer (s : State) : (loadRun s).offer = s.offer := rfl
@[simp] theorem loadRun_cur (s : State) : (loadRun s).cur = s.cur := rfl
@[simp] theorem loadRun_markAt (s : State) : (loadRun s).markAt = s.markAt := rfl
@[simp] theorem loadRun_input (s : State) : (loadRun s).input = s.input := rfl
@[simp] theorem loadRun_pixelSink (s : State) : (loadRun s).pixelSink = s.pixelSink := rfl
@[simp] theorem loadRun_emitted (s : State) : (loadRun s).emitted = s.emitted := rfl
@[simp] theorem loadRun_pixelSource (s : State) : (loadRun s).pixelSource = s.pixelSource := rfl
@[simp] theorem loadRun_byteSink (s : State) : (loadRun s).byteSink = s.byteSink := rfl
@[simp] theorem loadRun_written (s : State) : (loadRun s).written = s.written := rfl
@[simp] theorem loadRun_host (s : State) : (loadRun s).host = s.host := rfl
@[simp] theorem loadRun_hostSeen (s : State) : (loadRun s).hostSeen = s.hostSeen := rfl

/-! ### pixelEncoded -/

@[simp] theorem pixelEncoded_prev (s : State) : (pixelEncoded s).prev = s.prev := rfl
@[simp] theorem pixelEncoded_run (s : State) : (pixelEncoded s).run = s.run := rfl
@[simp] theorem pixelEncoded_cache (s : State) : (pixelEncoded s).cache = s.cache := rfl
@[simp] theorem pixelEncoded_scratch (s : State) : (pixelEncoded s).scratch = s.scratch := rfl
@[simp] theorem pixelEncoded_pos (s : State) : (pixelEncoded s).pos = s.pos := rfl
@[simp] theorem pixelEncoded_k (s : State) : (pixelEncoded s).k = s.k + 1 := rfl
@[simp] theorem pixelEncoded_npix (s : State) : (pixelEncoded s).npix = s.npix := rfl
@[simp] theorem pixelEncoded_opos (s : State) : (pixelEncoded s).opos = s.opos := rfl
@[simp] theorem pixelEncoded_width (s : State) : (pixelEncoded s).width = s.width := rfl
@[simp] theorem pixelEncoded_height (s : State) : (pixelEncoded s).height = s.height := rfl
@[simp] theorem pixelEncoded_channels (s : State) : (pixelEncoded s).channels = s.channels := rfl
@[simp] theorem pixelEncoded_colorspace (s : State) : (pixelEncoded s).colorspace = s.colorspace := rfl
@[simp] theorem pixelEncoded_op (s : State) : (pixelEncoded s).op = s.op := rfl
@[simp] theorem pixelEncoded_phase (s : State) :
    (pixelEncoded s).phase = if s.k + 1 < s.npix then s.phase else .encEnd := rfl
@[simp] theorem pixelEncoded_errCode (s : State) : (pixelEncoded s).errCode = s.errCode := rfl
@[simp] theorem pixelEncoded_errOffset (s : State) : (pixelEncoded s).errOffset = s.errOffset := rfl
@[simp] theorem pixelEncoded_errInfo (s : State) : (pixelEncoded s).errInfo = s.errInfo := rfl
@[simp] theorem pixelEncoded_ioErr (s : State) : (pixelEncoded s).ioErr = s.ioErr := rfl
@[simp] theorem pixelEncoded_maxPixels (s : State) : (pixelEncoded s).maxPixels = s.maxPixels := rfl
@[simp] theorem pixelEncoded_offer (s : State) : (pixelEncoded s).offer = s.offer := rfl
@[simp] theorem pixelEncoded_cur (s : State) : (pixelEncoded s).cur = none := rfl
@[simp] theorem pixelEncoded_markAt (s : State) : (pixelEncoded s).markAt = s.markAt := rfl
@[simp] theorem pixelEncoded_input (s : State) : (pixelEncoded s).input = s.input := rfl
@[simp] theorem pixelEncoded_pixelSink (s : State) : (pixelEncoded s).pixelSink = s.pixelSink := rfl
@[simp] theorem pixelEncoded_emitted (s : State) : (pixelEncoded s).emitted = s.emitted := rfl
@[simp] theorem pixelEncoded_pixelSource (s : State) : (pixelEncoded s).pixelSource = s.pixelSource := rfl
@[simp] theorem pixelEncoded_byteSink (s : State) : (pixelEncoded s).byteSink = s.byteSink := rfl
@[simp] theorem pixelEncoded_written (s : State) : (pixelEncoded s).written = s.written := rfl
@[simp] theorem pixelEncoded_host (s : State) : (pixelEncoded s).host = s.host := rfl
@[simp] theorem pixelEncoded_hostSeen (s : State) : (pixelEncoded s).hostSeen = s.hostSeen := rfl

/-! ### markDone -/

@[simp] theorem markDone_prev (s : State) : (markDone s).prev = s.prev := rfl
@[simp] theorem markDone_run (s : State) : (markDone s).run = s.run := rfl
@[simp] theorem markDone_cache (s : State) : (markDone s).cache = s.cache := rfl
@[simp] theorem markDone_scratch (s : State) : (markDone s).scratch = s.scratch := rfl
@[simp] theorem markDone_pos (s : State) : (markDone s).pos = s.pos := rfl
@[simp] theorem markDone_k (s : State) : (markDone s).k = s.k := rfl
@[simp] theorem markDone_npix (s : State) : (markDone s).npix = s.npix := rfl
@[simp] theorem markDone_opos (s : State) : (markDone s).opos = s.opos := rfl
@[simp] theorem markDone_width (s : State) : (markDone s).width = s.width := rfl
@[simp] theorem markDone_height (s : State) : (markDone s).height = s.height := rfl
@[simp] theorem markDone_channels (s : State) : (markDone s).channels = s.channels := rfl
@[simp] theorem markDone_colorspace (s : State) : (markDone s).colorspace = s.colorspace := rfl
@[simp] theorem markDone_op (s : State) : (markDone s).op = s.op := rfl
@[simp] theorem markDone_phase (s : State) :
    (markDone s).phase = if s.markAt + 1 < endMarker.length then s.phase else .done := rfl
@[simp] theorem markDone_errCode (s : State) : (markDone s).errCode = s.errCode := rfl
@[simp] theorem markDone_errOffset (s : State) : (markDone s).errOffset = s.errOffset := rfl
@[simp] theorem markDone_errInfo (s : State) : (markDone s).errInfo = s.errInfo := rfl
@[simp] theorem markDone_ioErr (s : State) : (markDone s).ioErr = s.ioErr := rfl
@[simp] theorem markDone_maxPixels (s : State) : (markDone s).maxPixels = s.maxPixels := rfl
@[simp] theorem markDone_offer (s : State) : (markDone s).offer = s.offer := rfl
@[simp] theorem markDone_cur (s : State) : (markDone s).cur = s.cur := rfl
@[simp] theorem markDone_markAt (s : State) : (markDone s).markAt = s.markAt + 1 := rfl
@[simp] theorem markDone_input (s : State) : (markDone s).input = s.input := rfl
@[simp] theorem markDone_pixelSink (s : State) : (markDone s).pixelSink = s.pixelSink := rfl
@[simp] theorem markDone_emitted (s : State) : (markDone s).emitted = s.emitted := rfl
@[simp] theorem markDone_pixelSource (s : State) : (markDone s).pixelSource = s.pixelSource := rfl
@[simp] theorem markDone_byteSink (s : State) : (markDone s).byteSink = s.byteSink := rfl
@[simp] theorem markDone_written (s : State) : (markDone s).written = s.written := rfl
@[simp] theorem markDone_host (s : State) : (markDone s).host = s.host := rfl
@[simp] theorem markDone_hostSeen (s : State) : (markDone s).hostSeen = s.hostSeen := rfl

/-! ### clearForStart -/

@[simp] theorem clearForStart_prev (o : Op) (s : State) : (clearForStart o s).prev = s.prev := rfl
@[simp] theorem clearForStart_run (o : Op) (s : State) : (clearForStart o s).run = s.run := rfl
@[simp] theorem clearForStart_cache (o : Op) (s : State) : (clearForStart o s).cache = s.cache := rfl
@[simp] theorem clearForStart_scratch (o : Op) (s : State) : (clearForStart o s).scratch = [] := rfl
@[simp] theorem clearForStart_pos (o : Op) (s : State) : (clearForStart o s).pos = 0 := rfl
@[simp] theorem clearForStart_k (o : Op) (s : State) : (clearForStart o s).k = 0 := rfl
@[simp] theorem clearForStart_npix (o : Op) (s : State) : (clearForStart o s).npix = 0 := rfl
@[simp] theorem clearForStart_opos (o : Op) (s : State) : (clearForStart o s).opos = 0 := rfl
@[simp] theorem clearForStart_width (o : Op) (s : State) : (clearForStart o s).width = s.width := rfl
@[simp] theorem clearForStart_height (o : Op) (s : State) : (clearForStart o s).height = s.height := rfl
@[simp] theorem clearForStart_channels (o : Op) (s : State) : (clearForStart o s).channels = s.channels := rfl
@[simp] theorem clearForStart_colorspace (o : Op) (s : State) : (clearForStart o s).colorspace = s.colorspace := rfl
@[simp] theorem clearForStart_op (o : Op) (s : State) : (clearForStart o s).op = o := rfl
@[simp] theorem clearForStart_phase (o : Op) (s : State) : (clearForStart o s).phase = s.phase := rfl
@[simp] theorem clearForStart_errCode (o : Op) (s : State) : (clearForStart o s).errCode = .none := rfl
@[simp] theorem clearForStart_errOffset (o : Op) (s : State) : (clearForStart o s).errOffset = 0 := rfl
@[simp] theorem clearForStart_errInfo (o : Op) (s : State) : (clearForStart o s).errInfo = 0 := rfl
@[simp] theorem clearForStart_ioErr (o : Op) (s : State) : (clearForStart o s).ioErr = none := rfl
@[simp] theorem clearForStart_maxPixels (o : Op) (s : State) : (clearForStart o s).maxPixels = s.maxPixels := rfl
@[simp] theorem clearForStart_offer (o : Op) (s : State) : (clearForStart o s).offer = false := rfl
@[simp] theorem clearForStart_cur (o : Op) (s : State) : (clearForStart o s).cur = none := rfl
@[simp] theorem clearForStart_markAt (o : Op) (s : State) : (clearForStart o s).markAt = 0 := rfl
@[simp] theorem clearForStart_input (o : Op) (s : State) : (clearForStart o s).input = s.input := rfl
@[simp] theorem clearForStart_pixelSink (o : Op) (s : State) : (clearForStart o s).pixelSink = s.pixelSink := rfl
@[simp] theorem clearForStart_emitted (o : Op) (s : State) : (clearForStart o s).emitted = [] := rfl
@[simp] theorem clearForStart_pixelSource (o : Op) (s : State) :
    (clearForStart o s).pixelSource = s.pixelSource := rfl
@[simp] theorem clearForStart_byteSink (o : Op) (s : State) : (clearForStart o s).byteSink = s.byteSink := rfl
@[simp] theorem clearForStart_written (o : Op) (s : State) : (clearForStart o s).written = [] := rfl
@[simp] theorem clearForStart_host (o : Op) (s : State) : (clearForStart o s).host = s.host := rfl
@[simp] theorem clearForStart_hostSeen (o : Op) (s : State) : (clearForStart o s).hostSeen = s.hostSeen := rfl

/-! ### startDecode -/

@[simp] theorem startDecode_prev (o : Op) (s : State) : (startDecode o s).prev = s.prev := rfl
@[simp] theorem startDecode_run (o : Op) (s : State) : (startDecode o s).run = s.run := rfl
@[simp] theorem startDecode_cache (o : Op) (s : State) : (startDecode o s).cache = s.cache := rfl
@[simp] theorem startDecode_scratch (o : Op) (s : State) : (startDecode o s).scratch = [] := rfl
@[simp] theorem startDecode_pos (o : Op) (s : State) : (startDecode o s).pos = 0 := rfl
@[simp] theorem startDecode_k (o : Op) (s : State) : (startDecode o s).k = 0 := rfl
@[simp] theorem startDecode_npix (o : Op) (s : State) : (startDecode o s).npix = 0 := rfl
@[simp] theorem startDecode_opos (o : Op) (s : State) : (startDecode o s).opos = 0 := rfl
@[simp] theorem startDecode_width (o : Op) (s : State) : (startDecode o s).width = 0 := rfl
@[simp] theorem startDecode_height (o : Op) (s : State) : (startDecode o s).height = 0 := rfl
@[simp] theorem startDecode_channels (o : Op) (s : State) : (startDecode o s).channels = 0 := rfl
@[simp] theorem startDecode_colorspace (o : Op) (s : State) : (startDecode o s).colorspace = 0 := rfl
@[simp] theorem startDecode_op (o : Op) (s : State) : (startDecode o s).op = o := rfl
@[simp] theorem startDecode_phase (o : Op) (s : State) : (startDecode o s).phase = .decHeader := rfl
@[simp] theorem startDecode_errCode (o : Op) (s : State) : (startDecode o s).errCode = .none := rfl
@[simp] theorem startDecode_errOffset (o : Op) (s : State) : (startDecode o s).errOffset = 0 := rfl
@[simp] theorem startDecode_errInfo (o : Op) (s : State) : (startDecode o s).errInfo = 0 := rfl
@[simp] theorem startDecode_ioErr (o : Op) (s : State) : (startDecode o s).ioErr = none := rfl
@[simp] theorem startDecode_maxPixels (o : Op) (s : State) : (startDecode o s).maxPixels = s.maxPixels := rfl
@[simp] theorem startDecode_offer (o : Op) (s : State) : (startDecode o s).offer = false := rfl
@[simp] theorem startDecode_cur (o : Op) (s : State) : (startDecode o s).cur = none := rfl
@[simp] theorem startDecode_markAt (o : Op) (s : State) : (startDecode o s).markAt = 0 := rfl
@[simp] theorem startDecode_input (o : Op) (s : State) : (startDecode o s).input = s.input := rfl
@[simp] theorem startDecode_pixelSink (o : Op) (s : State) : (startDecode o s).pixelSink = s.pixelSink := rfl
@[simp] theorem startDecode_emitted (o : Op) (s : State) : (startDecode o s).emitted = [] := rfl
@[simp] theorem startDecode_pixelSource (o : Op) (s : State) : (startDecode o s).pixelSource = s.pixelSource := rfl
@[simp] theorem startDecode_byteSink (o : Op) (s : State) : (startDecode o s).byteSink = s.byteSink := rfl
@[simp] theorem startDecode_written (o : Op) (s : State) : (startDecode o s).written = [] := rfl
@[simp] theorem startDecode_host (o : Op) (s : State) : (startDecode o s).host = s.host := rfl
@[simp] theorem startDecode_hostSeen (o : Op) (s : State) : (startDecode o s).hostSeen = s.hostSeen := rfl

/-! ### hardReset -/

@[simp] theorem hardReset_prev (s : State) : (hardReset s).prev = State.reset.prev := rfl
@[simp] theorem hardReset_run (s : State) : (hardReset s).run = State.reset.run := rfl
@[simp] theorem hardReset_cache (s : State) : (hardReset s).cache = State.reset.cache := rfl
@[simp] theorem hardReset_scratch (s : State) : (hardReset s).scratch = State.reset.scratch := rfl
@[simp] theorem hardReset_pos (s : State) : (hardReset s).pos = State.reset.pos := rfl
@[simp] theorem hardReset_k (s : State) : (hardReset s).k = State.reset.k := rfl
@[simp] theorem hardReset_npix (s : State) : (hardReset s).npix = State.reset.npix := rfl
@[simp] theorem hardReset_opos (s : State) : (hardReset s).opos = State.reset.opos := rfl
@[simp] theorem hardReset_width (s : State) : (hardReset s).width = State.reset.width := rfl
@[simp] theorem hardReset_height (s : State) : (hardReset s).height = State.reset.height := rfl
@[simp] theorem hardReset_channels (s : State) : (hardReset s).channels = State.reset.channels := rfl
@[simp] theorem hardReset_colorspace (s : State) : (hardReset s).colorspace = State.reset.colorspace := rfl
@[simp] theorem hardReset_op (s : State) : (hardReset s).op = State.reset.op := rfl
@[simp] theorem hardReset_phase (s : State) : (hardReset s).phase = State.reset.phase := rfl
@[simp] theorem hardReset_errCode (s : State) : (hardReset s).errCode = State.reset.errCode := rfl
@[simp] theorem hardReset_errOffset (s : State) : (hardReset s).errOffset = State.reset.errOffset := rfl
@[simp] theorem hardReset_errInfo (s : State) : (hardReset s).errInfo = State.reset.errInfo := rfl
@[simp] theorem hardReset_ioErr (s : State) : (hardReset s).ioErr = State.reset.ioErr := rfl
@[simp] theorem hardReset_maxPixels (s : State) : (hardReset s).maxPixels = s.maxPixels := rfl
@[simp] theorem hardReset_offer (s : State) : (hardReset s).offer = State.reset.offer := rfl
@[simp] theorem hardReset_cur (s : State) : (hardReset s).cur = State.reset.cur := rfl
@[simp] theorem hardReset_markAt (s : State) : (hardReset s).markAt = State.reset.markAt := rfl
@[simp] theorem hardReset_input (s : State) : (hardReset s).input = State.reset.input := rfl
@[simp] theorem hardReset_pixelSink (s : State) : (hardReset s).pixelSink = State.reset.pixelSink := rfl
@[simp] theorem hardReset_emitted (s : State) : (hardReset s).emitted = State.reset.emitted := rfl
@[simp] theorem hardReset_pixelSource (s : State) : (hardReset s).pixelSource = State.reset.pixelSource := rfl
@[simp] theorem hardReset_byteSink (s : State) : (hardReset s).byteSink = State.reset.byteSink := rfl
@[simp] theorem hardReset_written (s : State) : (hardReset s).written = State.reset.written := rfl
@[simp] theorem hardReset_host (s : State) : (hardReset s).host = s.host := rfl
@[simp] theorem hardReset_hostSeen (s : State) : (hardReset s).hostSeen = s.hostSeen := rfl

end Sys2Proof.Machine
end

