-- ==== Sys2Proof/Laws/Ops.lean ====
section
/-! SUPPORT. For each shared operation, one lemma that says once everything it can do. -/

namespace Sys2Proof.Machine

/-! ### The color cache -/

/-- A cache write changes the slot of the pixel's hash and no other (R37). -/
theorem cacheWrite_get (cache : Vector Pixel 64) (p : Pixel) (j : Fin 64) :
    (cacheWrite cache p).get j = if j = hash6 p then p else cache.get j := by
  simp only [cacheWrite, Vector.get_eq_getElem, Vector.getElem_set, Fin.ext_iff, eq_comm]

@[simp] theorem writePixel_slot (p : Pixel) (s : State) (j : Fin 64) :
    (writePixel p s).slot j = if j = hash6 p then p else s.slot j := cacheWrite_get s.cache p j

@[simp] theorem initStream_slot (s : State) (j : Fin 64) : (initStream s).slot j = Pixel.zero := by
  simp [State.slot, Vector.get_eq_getElem]

/-- Writing a pixel keeps the cache consistent (R37). -/
theorem cacheInv_writePixel {p : Pixel} {s : State} (h : CacheInv s) : CacheInv (writePixel p s) := by
  intro j
  rw [writePixel_slot]
  split
  · next hj => exact .inr hj.symm
  · exact h j

/-- The stream-start cache is consistent. -/
theorem cacheInv_initStream (s : State) : CacheInv (initStream s) := fun j => .inl (initStream_slot s j)

/-! ### Byte transfers -/

/-- Everything a byte request can do (R41). -/
theorem readByte_cases (s : State) :
    (s.input = [] ∧ readByte s = .stop s) ∨
    (∃ rest, s.input = .wait :: rest ∧ readByte s = .stop { s with input := rest }) ∨
    (∃ b rest, s.input = .byte b :: rest ∧ readByte s = .byte b { s with input := rest, pos := s.pos + 1 }) ∨
    (∃ rest, s.input = .eof :: rest ∧ readByte s = .stop (raise .truncated s.pos 0 { s with input := rest })) ∨
    (∃ e rest, s.input = .ioErr e :: rest ∧ readByte s = .stop (raiseIo e s.pos { s with input := rest })) := by
  unfold readByte
  rcases h : s.input with _ | ⟨_ | _ | _ | _, rest⟩ <;> simp

/-- Everything a byte write can do (R46). -/
theorem writeByte_cases (b : Byte) (s : State) :
    (s.byteSink = [] ∧ writeByte b s = .stop s) ∨
    (∃ rest, s.byteSink = .wait :: rest ∧ writeByte b s = .stop { s with byteSink := rest }) ∨
    (∃ rest, s.byteSink = .ok :: rest ∧
      writeByte b s = .ok { s with byteSink := rest, opos := s.opos + 1, written := s.written ++ [b] }) ∨
    (∃ e rest, s.byteSink = .ioErr e :: rest ∧
      writeByte b s = .stop (raiseIo e s.opos { s with byteSink := rest })) := by
  unfold writeByte
  rcases h : s.byteSink with _ | ⟨_ | _ | _, rest⟩ <;> simp

/-- Everything the delivery of a pixel can do (R43). -/
theorem emitPixel_cases (s : State) :
    (s.pixelSink = [] ∧ emitPixel s = s) ∨
    (∃ rest, s.pixelSink = .wait :: rest ∧ emitPixel s = { s with pixelSink := rest }) ∨
    (∃ rest, s.pixelSink = .accept :: rest ∧ emitPixel s = pixelAccepted { s with pixelSink := rest }) := by
  unfold emitPixel
  rcases h : s.pixelSink with _ | ⟨_ | _, rest⟩ <;> simp

/-- Where the next answer is an acceptance, the pixel moves. -/
theorem emitPixel_accept {s : State} {rest : List SinkAnswer} (h : s.pixelSink = .accept :: rest) :
    emitPixel s = pixelAccepted { s with pixelSink := rest } := by
  simp [emitPixel, h]

/-! ### Fetching a chunk -/

/-- The state after the bytes `bytes` of a chunk have been read. -/
def fetched (s : State) (bytes : List Byte) (rest : List InAnswer) : State :=
  { s with input := rest, pos := s.pos + bytes.length, scratch := s.scratch ++ bytes }

/-- A chunk of five bytes or more is complete (R72). -/
theorem chunkComplete_of_five {scratch : List Byte} (h : 5 ≤ scratch.length) : chunkComplete scratch = true := by
  rcases scratch with _ | ⟨t, payload⟩
  · simp at h
  · rw [chunkComplete, decide_eq_true_eq]
    simp only [List.length_cons] at h
    cases chunkKind t <;> simp only [chunkLength] <;> omega

/-- Everything a fetch can do: it has the whole chunk, or it waits, or the channel ended the operation (R41, R42). The bytes
`bytes` are the ones it has read. -/
theorem fetchBytes_cases (fuel : Nat) (s : State) (hf : 1 ≤ fuel) (hl : 6 ≤ fuel + s.scratch.length) :
    ∃ bytes, (∀ j < bytes.length, chunkComplete (s.scratch ++ bytes.take j) = false) ∧
      ((∃ rest, s.input = bytes.map .byte ++ rest ∧ chunkComplete (s.scratch ++ bytes) = true ∧
          fetchBytes fuel s = .ready (fetched s bytes rest)) ∨
       (chunkComplete (s.scratch ++ bytes) = false ∧
        ((s.input = bytes.map .byte ∧ fetchBytes fuel s = .stop (fetched s bytes [])) ∨
         (∃ rest, s.input = bytes.map .byte ++ .wait :: rest ∧ fetchBytes fuel s = .stop (fetched s bytes rest)) ∨
         (∃ rest, s.input = bytes.map .byte ++ .eof :: rest ∧
            fetchBytes fuel s = .stop (raise .truncated (s.pos + bytes.length) 0 (fetched s bytes rest))) ∨
         (∃ e rest, s.input = bytes.map .byte ++ .ioErr e :: rest ∧
            fetchBytes fuel s = .stop (raiseIo e (s.pos + bytes.length) (fetched s bytes rest)))))) := by
  induction fuel generalizing s with
  | zero => omega
  | succ fuel ih =>
    by_cases hc : chunkComplete s.scratch = true
    · exact ⟨[], by simp, .inl ⟨s.input, by simp, by simpa using hc, by simp [fetchBytes, hc, fetched]⟩⟩
    · have hlen : s.scratch.length ≤ 4 := by
        by_contra hcon
        exact hc (chunkComplete_of_five (by omega))
      rw [Bool.not_eq_true] at hc
      rcases readByte_cases s with ⟨hi, hr⟩ | ⟨rest, hi, hr⟩ | ⟨b, rest, hi, hr⟩ | ⟨rest, hi, hr⟩ | ⟨e, rest, hi, hr⟩
      · exact ⟨[], by simp, .inr ⟨by simpa using hc, .inl ⟨by simpa using hi, by simp [fetchBytes, hc, hr, fetched, ← hi]⟩⟩⟩
      · exact ⟨[], by simp, .inr ⟨by simpa using hc, .inr (.inl ⟨rest, by simpa using hi, by
          simp [fetchBytes, hc, hr, fetched]⟩)⟩⟩
      · obtain ⟨bytes, hpre, hres⟩ := ih { s with input := rest, pos := s.pos + 1, scratch := s.scratch ++ [b] }
          (by omega) (by simp; omega)
        refine ⟨b :: bytes, ?_, ?_⟩
        · intro j hj
          cases j with
          | zero => simpa using hc
          | succ j => simpa using hpre j (by simpa using hj)
        · simpa [fetchBytes, hc, hr, hi, fetched, Nat.add_assoc, Nat.add_comm 1] using hres
      · exact ⟨[], by simp, .inr ⟨by simpa using hc, .inr (.inr (.inl ⟨rest, by simpa using hi, by
          simp [fetchBytes, hc, hr, fetched]⟩))⟩⟩
      · exact ⟨[], by simp, .inr ⟨by simpa using hc, .inr (.inr (.inr ⟨e, rest, by simpa using hi, by
          simp [fetchBytes, hc, hr, fetched]⟩))⟩⟩

/-! ### Writing a chunk -/

/-- The state after the bytes `bytes` have been accepted and `left` are still to write. -/
def sent (s : State) (bytes left : List Byte) (sink : List OutAnswer) : State :=
  { s with
    byteSink := sink, opos := s.opos + bytes.length, written := s.written ++ bytes, scratch := left }

/-- Everything the writing of a chunk can do: all of it is accepted, or the sink makes it wait or refuses after some of it
(R46). -/
theorem writeScratch_cases (bytes : List Byte) (s : State) (hs : s.scratch = bytes) :
    (∃ sink, s.byteSink = List.replicate bytes.length .ok ++ sink ∧
      writeScratch bytes s = .ok (sent s bytes [] sink)) ∨
    (∃ j, j < bytes.length ∧
      ((s.byteSink = List.replicate j .ok ∧
          writeScratch bytes s = .stop (sent s (bytes.take j) (bytes.drop j) [])) ∨
       (∃ sink, s.byteSink = List.replicate j .ok ++ .wait :: sink ∧
          writeScratch bytes s = .stop (sent s (bytes.take j) (bytes.drop j) sink)) ∨
       (∃ e sink, s.byteSink = List.replicate j .ok ++ .ioErr e :: sink ∧
          writeScratch bytes s =
            .stop (raiseIo e (s.opos + j) (sent s (bytes.take j) (bytes.drop j) sink))))) := by
  induction bytes generalizing s with
  | nil =>
    refine .inl ⟨s.byteSink, by simp, ?_⟩
    cases s
    simp_all [writeScratch, sent]
  | cons b bytes ih =>
    rcases writeByte_cases b s with ⟨hi, hr⟩ | ⟨rest, hi, hr⟩ | ⟨rest, hi, hr⟩ | ⟨e, rest, hi, hr⟩
    · exact .inr ⟨0, by simp, .inl ⟨by simpa using hi, by simp [writeScratch, hr, sent, ← hs, ← hi]⟩⟩
    · exact .inr ⟨0, by simp, .inr (.inl ⟨rest, by simpa using hi, by simp [writeScratch, hr, sent, ← hs]⟩)⟩
    · have := ih { s with byteSink := rest, opos := s.opos + 1, written := s.written ++ [b], scratch := bytes } rfl
      rcases this with ⟨sink, h1, h2⟩ | ⟨j, hj, h⟩
      · refine .inl ⟨sink, ?_, ?_⟩
        · simpa [hi, List.replicate_succ] using h1
        · simpa [writeScratch, hr, sent, Nat.add_assoc, Nat.add_comm 1] using h2
      · refine .inr ⟨j + 1, by simpa using hj, ?_⟩
        simpa [writeScratch, hr, hi, sent, List.replicate_succ, Nat.add_assoc, Nat.add_comm 1] using h
    · exact .inr ⟨0, by simp, .inr (.inr ⟨e, rest, by simpa using hi, by simp [writeScratch, hr, sent, ← hs]⟩)⟩

/-- Everything the writing of a RUN chunk can do: its byte is accepted and the run is cleared, or the sink makes it wait or
refuses it, and the byte stays in the scratch (R24, R109, R110). -/
theorem emitRun_cases (s : State) (hs : s.scratch = encRun s.run.toNat) :
    (s.byteSink = [] ∧ emitRun s = .stop s) ∨
    (∃ sink, s.byteSink = .wait :: sink ∧ emitRun s = .stop { s with byteSink := sink }) ∨
    (∃ sink, s.byteSink = .ok :: sink ∧
      emitRun s = .ok { sent s (encRun s.run.toNat) [] sink with run := 0 }) ∨
    (∃ e sink, s.byteSink = .ioErr e :: sink ∧ emitRun s = .stop (raiseIo e s.opos { s with byteSink := sink })) := by
  rcases writeByte_cases (encRunTag s.run.toNat) s with ⟨hi, hr⟩ | ⟨rest, hi, hr⟩ | ⟨rest, hi, hr⟩ | ⟨e, rest, hi, hr⟩ <;>
    simp [emitRun, hs, encRun, writeScratch, hr, hi, sent]

end Sys2Proof.Machine
end

