-- ==== Sys2Proof/Laws/PerInstr.lean ====
section
/-! SUPPORT. Laws stated per chunk kind. -/

namespace Sys2Proof.Laws.EncodeShape

/-- R63, R74: the encoding of a well-formed chunk has the length of its kind, and its tag byte alone tells the kind. -/
def Statement (i : Sys2Proof.Instr) : Prop :=
  i.wf = true → (Sys2Proof.encode i).length = Sys2Proof.chunkLength i.kind ∧
    ∃ t payload, Sys2Proof.encode i = t :: payload ∧ Sys2Proof.chunkKind t = i.kind

theorem rgb (r g b : Sys2Proof.Byte) : Statement (.rgb r g b) :=
  fun _ => ⟨rfl, _, _, rfl, (by decide : Sys2Proof.chunkKind 0xFE = .rgb)⟩

theorem rgba (r g b a : Sys2Proof.Byte) : Statement (.rgba r g b a) :=
  fun _ => ⟨rfl, _, _, rfl, (by decide : Sys2Proof.chunkKind 0xFF = .rgba)⟩

theorem index (i : Fin 64) : Statement (.index i) := by
  intro _
  refine ⟨rfl, _, _, rfl, ?_⟩
  revert i
  decide

theorem diff (dr dg db : Int) : Statement (.diff dr dg db) := by
  intro h
  refine ⟨rfl, _, _, rfl, ?_⟩
  simp only [Sys2Proof.Instr.wf, Sys2Proof.inRange, Bool.and_eq_true, decide_eq_true_eq] at h
  obtain ⟨⟨⟨h1, h2⟩, h3, h4⟩, h5, h6⟩ := h
  interval_cases dr <;> interval_cases dg <;> interval_cases db <;> decide

theorem luma (dg drg dbg : Int) : Statement (.luma dg drg dbg) := by
  intro h
  refine ⟨rfl, _, _, rfl, ?_⟩
  simp only [Sys2Proof.Instr.wf, Sys2Proof.inRange, Bool.and_eq_true, decide_eq_true_eq] at h
  obtain ⟨⟨⟨h1, h2⟩, -⟩, -⟩ := h
  interval_cases dg <;> rfl

theorem run (n : Nat) : Statement (.run n) := by
  intro h
  refine ⟨rfl, _, _, rfl, ?_⟩
  simp only [Sys2Proof.Instr.wf, Bool.and_eq_true, decide_eq_true_eq] at h
  obtain ⟨h1, h2⟩ := h
  interval_cases n <;> rfl

end Sys2Proof.Laws.EncodeShape
end

