-- ==== Sys2Proof/Laws/Run.lean ====
section
/-! SUPPORT. Runs of the machine, one step or one part at a time. -/

namespace Sys2Proof.Machine

/-- A run of no steps. -/
theorem run_zero (s : State) : Host.Core.run Sys2Proof.core 0 s = .next s := rfl

/-- The first step of a run. -/
theorem run_succ {s u : State} (n : Nat) (h : step s = .next u) :
    Host.Core.run Sys2Proof.core (n + 1) s = Host.Core.run Sys2Proof.core n u := by
  have h' : Sys2Proof.core.step s = .next u := h
  simp only [Host.Core.run, h']

/-- A run in two parts. -/
theorem run_add {m : Nat} (n : Nat) {s u : State} (h : Host.Core.run Sys2Proof.core m s = .next u) :
    Host.Core.run Sys2Proof.core (m + n) s = Host.Core.run Sys2Proof.core n u := by
  induction m generalizing s with
  | zero =>
    rw [run_zero] at h
    cases h
    rw [Nat.zero_add]
  | succ m ih =>
    rcases hs : Sys2Proof.core.step s with t | r | r <;> simp only [Host.Core.run, hs] at h
    · rw [Nat.add_right_comm, run_succ _ hs]
      exact ih h
    · cases h
    · cases h

/-- A run of one step. -/
theorem run_one {s t : State} (h : step s = .next t) : Host.Core.run Sys2Proof.core 1 s = .next t := by
  rw [run_succ 0 h, run_zero]

/-- A step, then a run. -/
theorem run_step {n : Nat} {s u t : State} (h : step s = .next u) (h' : Host.Core.run Sys2Proof.core n u = .next t) :
    Host.Core.run Sys2Proof.core (n + 1) s = .next t := by
  rw [run_succ n h, h']

/-- Two runs, one after the other. -/
theorem run_trans {m n : Nat} {s u t : State} (h : Host.Core.run Sys2Proof.core m s = .next u)
    (h' : Host.Core.run Sys2Proof.core n u = .next t) : Host.Core.run Sys2Proof.core (m + n) s = .next t := by
  rw [run_add n h, h']

/-- With a silent host, a step of the machine is a step of the block. -/
theorem step_silent {s : State} (h : s.host = []) : step s = blockStep s := by
  simp [step, machineStep, h]

end Sys2Proof.Machine
end

