-- ==== Sys2Proof/Tests/Slice0.lean ====
section
/-! SUPPORT. Tests of the model, and a witness for the hypotheses of every statement. Every expected value is
computed from the spec's rules or taken from 95_test_vectors.md, whose vector is named. -/

namespace Sys2Proof.Tests

open Sys2Proof Sys2Proof.Machine Sys2Proof.Statements

/-! ### States to test from -/

/-- A quiescent block with a MAX_PIXELS of its own. -/
def blk : State := { State.reset with maxPixels := 100 }

/-- A DECODE of a 2×1 image at its first tag. -/
def atTag (input : List InAnswer) : State :=
  { blk with
    op := .decode, phase := .decChunks, pos := 14, npix := 2, width := 2, height := 1, channels := 4, input := input,
    pixelSink := [.accept] }

/-- A DECODE or DECODE_CONFIG that has read nothing. -/
def freshDecode (o : Op) (input : List InAnswer) : State :=
  { blk with op := o, phase := .decHeader, input := input }

/-- A DECODE at its end marker. -/
def atEnd (input : List InAnswer) : State := { atTag input with phase := .decEnd, k := 2 }

/-- An ENCODE of an image of `w` pixels in one row that has written nothing. -/
def freshEncode (w : Nat) (source : List Pixel) (sink : List OutAnswer) : State :=
  { blk with
    op := .encode, phase := .encHeader, width := BitVec.ofNat 64 w, height := 1, channels := 4, npix := w,
    pixelSource := source.map .pixel, byteSink := sink }

/-- An ENCODE of a 2×1 image about to take a pixel. -/
def atPixel (run : BitVec 6) (source : List Pixel) (sink : List OutAnswer) : State :=
  { freshEncode 2 source sink with phase := .encChunks, opos := 14, run := run }

/-- The state after one step. -/
def after (s : State) : State :=
  match step s with
  | .next t => t
  | .fault _ => s
  | .refused _ => s

/-- `HDR(w, 1, c, f)` of 95_test_vectors.md, for a one-byte width. -/
def hdr (w c f : Byte) : List Byte := [0x71, 0x6F, 0x69, 0x66, 0, 0, 0, w, 0, 0, 0, 1, c, f]

/-! ### Well-formedness refuses (R73) -/

theorem test_wf_refuses_diff_red : (Instr.diff 2 0 0).wf = false := by decide
theorem test_wf_refuses_diff_green : (Instr.diff 0 (-3) 0).wf = false := by decide
theorem test_wf_refuses_diff_blue : (Instr.diff 0 0 2).wf = false := by decide
theorem test_wf_refuses_luma_green : (Instr.luma 32 0 0).wf = false := by decide
theorem test_wf_refuses_luma_red : (Instr.luma 0 (-9) 0).wf = false := by decide
theorem test_wf_refuses_luma_blue : (Instr.luma 0 0 8).wf = false := by decide
theorem test_wf_refuses_run_zero : (Instr.run 0).wf = false := by decide
theorem test_wf_refuses_run_63 : (Instr.run 63).wf = false := by decide

/-! ### Words, bit by bit (R65 to R70) -/

/-- `FE`, then r, g, b (D1). -/
theorem test_word_rgb :
    decode [0b11111110, 0b00010000, 0b00100000, 0b00110000] = .ok (.rgb 16 32 48) [] := by decide

/-- `FF`, then r, g, b, a (D3). -/
theorem test_word_rgba :
    decode [0b11111111, 0b00000001, 0b00000010, 0b00000011, 0b00000100] = .ok (.rgba 1 2 3 4) [] := by decide

/-- `00 iiiiii`, i = 53 (D7). -/
theorem test_word_index : decode [0b00110101] = .ok (.index 53) [] := by decide

/-- `01 rr gg bb`, the fields 3, 2, 1 less 2 (program P1). -/
theorem test_word_diff : decode [0b01111001] = .ok (.diff 1 0 (-1)) [] := by decide

/-- `10 gggggg` and `rrrr bbbb`: 42 - 32, 5 - 8, 12 - 8 (D12). -/
theorem test_word_luma : decode [0b10101010, 0b01011100] = .ok (.luma 10 (-3) 4) [] := by decide

/-- `11 llllll`, the length less one is 61 (D17). -/
theorem test_word_run : decode [0b11111101] = .ok (.run 62) [] := by decide

/-- A table word numbers the tag byte lowest (log 14): LUMA is two bytes. -/
theorem test_table_word : decodeTableWord 16 0x5CAA = some (.luma 10 (-3) 4) := by decide

/-- A word placed at the fetch runs as the first chunk after reset (log 15). -/
theorem test_with_fetch_word :
    (after (State.reset.withFetchWord 32 0x302010FE)).prev = ⟨16, 32, 48, 255⟩ := by decide

/-! ### Encodings (R74) -/

theorem test_encode_diff : encode (.diff (-1) 0 0) = [0x5A] := by decide
theorem test_encode_luma : encode (.luma (-32) (-8) 7) = [0x80, 0x0F] := by decide
theorem test_encode_run : encode (.run 3) = [0xC2] := by decide

/-! ### The chunks, one step each -/

/-- D2: RGB keeps the alpha. -/
theorem test_rgb_keeps_alpha :
    (after { atTag (bytesIn [0xFE, 5, 6, 7]) with prev := ⟨1, 2, 3, 128⟩ }).prev = ⟨5, 6, 7, 128⟩ := by decide

/-- D21: an RGB chunk cut short ends the operation and leaves `prev`. -/
theorem test_rgb_truncated :
    let t := after (atTag (bytesIn [0xFE, 0x10] ++ [.eof]))
    t.phase = .error ∧ t.errCode = .truncated ∧ t.errOffset = 16 ∧ t.pos = 16 ∧ t.prev = ⟨0, 0, 0, 255⟩ := by decide

/-- D3: the pixel enters slot 14. -/
theorem test_rgba_writes_its_slot :
    let t := after (atTag (bytesIn [0xFF, 1, 2, 3, 4]))
    t.prev = ⟨1, 2, 3, 4⟩ ∧ t.slot 14 = ⟨1, 2, 3, 4⟩ ∧ t.pos = 19 := by decide

/-- D5: a cached pixel. -/
theorem test_index_reads_its_slot :
    (after { atTag (bytesIn [0x15]) with cache := cacheWrite State.reset.cache ⟨16, 32, 48, 255⟩ }).prev
      = ⟨16, 32, 48, 255⟩ := by decide

/-- Program P3: INDEX of a slot never written overwrites slot 0. -/
theorem test_index_unwritten_slot :
    let t := after { atTag (bytesIn [0x05]) with cache := cacheWrite State.reset.cache ⟨0, 0, 0, 64⟩ }
    t.prev = ⟨0, 0, 0, 0⟩ ∧ t.slot 0 = ⟨0, 0, 0, 0⟩ := by decide

/-- D10: wrap below 0. -/
theorem test_diff_wraps_below : (after (atTag (bytesIn [0x40]))).prev = ⟨254, 254, 254, 255⟩ := by decide

/-- D11: wrap above 255. -/
theorem test_diff_wraps_above :
    (after { atTag (bytesIn [0x7F]) with prev := ⟨255, 255, 255, 255⟩ }).prev = ⟨0, 0, 0, 255⟩ := by decide

/-- D12: red and blue move relative to green. -/
theorem test_luma_relative_to_green :
    let t := after { atTag (bytesIn [0xAA, 0x5C]) with prev := ⟨100, 100, 100, 255⟩ }
    t.prev = ⟨107, 110, 114, 255⟩ ∧ t.slot 58 = ⟨107, 110, 114, 255⟩ := by decide

/-- D13: the lower extreme. -/
theorem test_luma_lower_extreme : (after (atTag (bytesIn [0x80, 0x00]))).prev = ⟨216, 224, 216, 255⟩ := by decide

/-- D17, D16: 61 copies still to come, and no cache write. -/
theorem test_run_62 :
    let t := after (atTag (bytesIn [0xFD]))
    t.run = 61 ∧ t.k = 1 ∧ t.slot 53 = ⟨0, 0, 0, 0⟩ := by decide

/-- D20: a run longer than the image is left over, and the end marker comes next. -/
theorem test_run_left_over :
    let t := after { atTag (bytesIn [0xC4]) with npix := 1 }
    t.run = 4 ∧ t.phase = .decEnd ∧ t.emitted = [⟨0, 0, 0, 255⟩] := by decide

/-! ### Operands (section 2 of the vectors) -/

theorem test_hash_black : hash6 ⟨0, 0, 0, 255⟩ = 53 := by decide
theorem test_hash_gray : hash6 ⟨107, 110, 114, 255⟩ = 58 := by decide

/-! ### Header, end marker, encoder, host -/

/-- H3: the magic is compared only after its fourth byte. -/
theorem test_header_waits_for_the_magic :
    (after { freshDecode .decode (bytesIn [0x58]) with pos := 2, scratch := [0x71, 0x6F] }).phase = .decHeader := by
  decide

/-- Scenario C: the bad magic is named. -/
theorem test_bad_magic :
    let t := after { freshDecode .decode (bytesIn [0x67]) with pos := 3, scratch := [0x71, 0x6F, 0x69] }
    t.errCode = .badMagic ∧ t.errOffset = 0 ∧ t.errInfo = 0x716F6967 ∧ t.pos = 4 := by decide

/-- M2: the eighth byte is checked too. -/
theorem test_end_marker_last_byte :
    let t := after { atEnd (bytesIn [2]) with pos := 22, markAt := 7 }
    t.errCode = .badEndMarker ∧ t.errOffset = 22 ∧ t.errInfo = 2 := by decide

/-- N13, N17: red 2 misses DIFF, red 8 misses LUMA. -/
theorem test_choice_of_chunk :
    encode (selectChunk ⟨0, 0, 0, 255⟩ State.reset.cache ⟨2, 0, 0, 255⟩) = [0xA0, 0xA8] ∧
    encode (selectChunk ⟨0, 0, 0, 255⟩ State.reset.cache ⟨8, 0, 0, 255⟩) = [0xFE, 8, 0, 0] := by decide

/-- N27: a pending run of 3 is written before the chunk. -/
theorem test_pending_run_is_flushed_first :
    (after { atPixel 3 [⟨10, 9, 9, 255⟩] [.ok, .ok] with prev := ⟨9, 9, 9, 255⟩ }).written = [0xC2, 0x7A] := by decide

/-- R24: while the sink has not answered, the RUN chunk of the pending run of 3 is in the scratch. -/
theorem test_run_chunk_waits_in_the_scratch :
    let t := after { atPixel 3 [⟨10, 9, 9, 255⟩] [] with prev := ⟨9, 9, 9, 255⟩ }
    t.scratch = [0xC2] ∧ t.run = 3 ∧ t.written = [] := by decide

/-- O12: a byte refused in the middle of a chunk leaves `prev` and `k`. -/
theorem test_refused_byte :
    let t := after (atPixel 0 [⟨9, 9, 9, 255⟩] [.ok, .ioErr 0])
    t.errCode = .ioError ∧ t.errOffset = 15 ∧ t.written = [0xA9] ∧ t.k = 0 ∧ t.prev = ⟨0, 0, 0, 255⟩ := by decide

/-- O8: the geometry is checked before the channels. -/
theorem test_options_geometry_first :
    let t := after { blk with host := [.write 0 3], width := 0, height := 1, channels := 5 }
    t.errCode = .badGeometry ∧ t.errInfo = 1 ∧ t.phase = .error := by decide

/-- G3: STATUS after Scenario C. -/
theorem test_status_word :
    readReg 1 { blk with op := .decode, phase := .error, errCode := .badMagic } = 0x0118 := by decide

/-! ### Witnesses: hypotheses met. A witness carries the name of its statement. -/

theorem witness_DecodeInvertsEncode :
    ∀ i ∈ [Instr.rgb 0 1 255, .rgba 1 2 3 0, .index 0, .index 63, .diff (-2) 1 (-2), .diff 1 (-2) 1, .luma (-32) (-8) 7,
      .luma 31 7 (-8), .run 1, .run 62], i.wf = true := by decide

theorem witness_DecodedChunkReencodesToItsBytes : decode [0xBF, 0xF0, 0x55] = .ok (.luma 31 7 (-8)) [0x55] := by decide

/-- Both clauses, at every boundary of the tag space. -/
theorem witness_TagByteAloneSelectsKindAndLength :
    (∀ t ∈ [(0x00 : Byte), 0x3F, 0x40, 0x7F, 0xC0, 0xFD], ∃ i, decode [t] = .ok i []) ∧
    (∀ t ∈ [(0x80 : Byte), 0xBF], (∃ i, decode [t, 7] = .ok i []) ∧ decode [t] = .reject (.shortPayload .luma)) ∧
    (∃ i, decode [0xFE, 1, 2, 3] = .ok i []) ∧ decode [0xFE, 1, 2] = .reject (.shortPayload .rgb) ∧
    (∃ i, decode [0xFF, 1, 2, 3, 4] = .ok i []) ∧ decode [0xFF, 1, 2, 3] = .reject (.shortPayload .rgba) := by
  refine ⟨?_, ?_, ⟨_, rfl⟩, by decide, ⟨_, rfl⟩, by decide⟩
  · intro t ht
    fin_cases ht <;> exact ⟨_, rfl⟩
  · intro t ht
    fin_cases ht <;> exact ⟨⟨_, rfl⟩, by decide⟩

theorem witness_ChunkFieldsHaveTheirBitsAndBiases :
    (∀ t ∈ [(0x00 : Byte), 0x3F], t.toNat < 64) ∧ (∀ t ∈ [(0x80 : Byte), 0xBF], 128 ≤ t.toNat ∧ t.toNat < 192) ∧
    (∀ t ∈ [(0xC0 : Byte), 0xFD], 192 ≤ t.toNat ∧ t.toNat < 254) := by decide

theorem witness_DiffFieldsHaveTheirBitsAndBias : ∀ t ∈ [(0x40 : Byte), 0x7F], 64 ≤ t.toNat ∧ t.toNat < 128 := by decide

theorem witness_RunChunkSetsOnlyTheRunCounter : ∀ n ∈ [1, 62], (Instr.run n).wf = true := by decide

/-- A decoder at a tag, whatever bytes come. -/
theorem atTag_meets (input : List InAnswer) : AtTag (atTag input) := ⟨rfl, rfl, rfl, rfl, rfl⟩

theorem witness_StepRunsTheDecodedChunk :
    AtTag (atTag (bytesIn [0xAA, 0x5C, 0xC0])) ∧ decode [0xAA, 0x5C] = .ok (.luma 10 (-3) 4) [] ∧
    (atTag (bytesIn [0xAA, 0x5C, 0xC0])).input = bytesIn [0xAA, 0x5C] ++ bytesIn [0xC0] :=
  ⟨atTag_meets _, by decide, rfl⟩

/-- The premises of `ChunkYields`, for any chunk. -/
theorem chunk_meets (bytes : List Byte) :
    AtTag (atTag (bytesIn bytes ++ [.eof])) ∧ (atTag (bytesIn bytes ++ [.eof])).input = bytesIn bytes ++ [.eof] ∧
    (atTag (bytesIn bytes ++ [.eof])).pixelSink = .accept :: [] := ⟨atTag_meets _, rfl, rfl⟩

/-- The premises of `FailsInside`, for any chunk cut after `j` bytes, both clauses. -/
theorem cut_meets (bytes : List Byte) (j : Nat) :
    AtTag (atTag (bytesIn (bytes.take j) ++ .eof :: [])) ∧ AtTag (atTag (bytesIn (bytes.take j) ++ .ioErr 9 :: [])) :=
  ⟨atTag_meets _, atTag_meets _⟩

theorem witness_RgbChunkStep :
    AtTag (atTag (bytesIn [0xFE, 1, 2, 3] ++ [.eof])) ∧
    ∀ j ∈ [0, 3], j < [0xFE, (1 : Byte), 2, 3].length ∧ AtTag (atTag (bytesIn ([0xFE, 1, 2, 3].take j) ++ [.eof])) :=
  ⟨(chunk_meets _).1, fun j hj => ⟨by revert j; decide, (cut_meets _ j).1⟩⟩

theorem witness_RgbaChunkStep :
    AtTag (atTag (bytesIn [0xFF, 1, 2, 3, 4] ++ [.eof])) ∧
    ∀ j ∈ [0, 4],
      j < [0xFF, (1 : Byte), 2, 3, 4].length ∧ AtTag (atTag (bytesIn ([0xFF, 1, 2, 3, 4].take j) ++ [.ioErr 9])) :=
  ⟨(chunk_meets _).1, fun j hj => ⟨by revert j; decide, (cut_meets _ j).2⟩⟩

theorem witness_IndexChunkStep :
    ∀ t ∈ [(0x00 : Byte), 0x3F], t.toNat < 64 ∧ AtTag (atTag (bytesIn [t] ++ [.eof])) :=
  fun t ht => ⟨by revert t; decide, (chunk_meets _).1⟩

theorem witness_DiffChunkStep :
    ∀ t ∈ [(0x40 : Byte), 0x7F], (64 ≤ t.toNat ∧ t.toNat < 128) ∧ AtTag (atTag (bytesIn [t] ++ [.eof])) :=
  fun t ht => ⟨by revert t; decide, (chunk_meets _).1⟩

theorem witness_LumaChunkStep :
    ∀ t ∈ [(0x80 : Byte), 0xBF], (128 ≤ t.toNat ∧ t.toNat < 192) ∧ AtTag (atTag (bytesIn [t, 0xF0] ++ [.eof])) :=
  fun t ht => ⟨by revert t; decide, (chunk_meets _).1⟩

theorem witness_RunChunkStep :
    ∀ t ∈ [(0xC0 : Byte), 0xFD], (192 ≤ t.toNat ∧ t.toNat < 254) ∧ AtTag (atTag (bytesIn [t] ++ [.eof])) :=
  fun t ht => ⟨by revert t; decide, (chunk_meets _).1⟩

theorem witness_RunContinuationReadsNothing :
    ∀ run ∈ [(1 : BitVec 6), 61], ∃ s : State, s.host = [] ∧ s.phase = .decChunks ∧ s.offer = false ∧ s.run = run ∧
      s.run ≠ 0 ∧ s.pixelSink = .accept :: [] :=
  fun run hr => ⟨{ atTag [] with run := run }, rfl, rfl, rfl, rfl, by revert run; decide, rfl⟩

theorem witness_SinkDelaysLoseNoPixel :
    ∀ m ∈ [0, 3], ∃ s : State, s.host = [] ∧ s.phase = .decChunks ∧ s.offer = true ∧
      s.pixelSink = List.replicate m .wait ++ .accept :: [] :=
  fun m _ => ⟨{ atTag [] with offer := true, pixelSink := List.replicate m .wait ++ .accept :: [] }, rfl, rfl, rfl, rfl⟩

theorem witness_LateBytesDoNotChangeAChunk :
    AtTag (atTag []) ∧ decode ([0xFE, 1] ++ [2, 3]) = .ok (.rgb 1 2 3) [] ∧ [2, (3 : Byte)] ≠ [] ∧
    decode ([] ++ [0x15]) = .ok (.index 21) [] := ⟨atTag_meets _, by decide, by decide, by decide⟩

/-- One state for each clause. -/
theorem witness_SilentChannelHoldsTheBlock :
    (∃ s : State, s.host = [] ∧ s.phase = .decHeader ∧ s.input = []) ∧
    (∃ s : State, s.host = [] ∧ s.phase = .decEnd ∧ s.input = []) ∧
    (∃ s : State, s.host = [] ∧ s.phase = .decChunks ∧ s.offer = true ∧ s.pixelSink = []) ∧
    (∃ s : State, s.host = [] ∧ s.phase = .decChunks ∧ s.offer = false ∧ s.run = 0 ∧ chunkComplete s.scratch = false ∧
      s.input = []) ∧
    (∃ s : State, s.host = [] ∧ s.phase = .encHeader ∧ s.byteSink = []) ∧
    (∃ s : State, s.host = [] ∧ s.phase = .encEnd ∧ s.byteSink = []) ∧
    (∃ s : State, s.host = [] ∧ s.phase = .encChunks ∧ s.cur = none ∧ s.pixelSource = []) ∧
    (∃ s : State, s.host = [] ∧ s.phase = .encChunks ∧ s.cur = some s.prev ∧ s.scratch ≠ [] ∧ s.byteSink = []) ∧
    (∃ s : State, s.host = [] ∧ s.phase = .encChunks ∧ s.cur = some ⟨1, 2, 3, 4⟩ ∧ s.run ≠ 0 ∧ s.scratch ≠ [] ∧
      s.byteSink = []) ∧
    (∃ s : State, s.host = [] ∧ s.phase = .encChunks ∧ s.cur = some ⟨1, 2, 3, 4⟩ ∧ s.scratch ≠ [] ∧ s.byteSink = []) :=
  ⟨⟨freshDecode .decode [], rfl, rfl, rfl⟩, ⟨atEnd [], rfl, rfl, rfl⟩,
    ⟨{ atTag [] with offer := true, pixelSink := [] }, rfl, rfl, rfl, rfl⟩,
    ⟨{ atTag [] with scratch := [0x80] }, rfl, rfl, rfl, rfl, by decide, rfl⟩,
    ⟨freshEncode 1 [] [], rfl, rfl, rfl⟩, ⟨{ freshEncode 1 [] [] with phase := .encEnd }, rfl, rfl, rfl⟩,
    ⟨atPixel 0 [] [], rfl, rfl, rfl, rfl⟩,
    ⟨{ atPixel 1 [] [] with cur := some ⟨0, 0, 0, 255⟩, scratch := [0xC0] }, rfl, rfl, rfl, by decide, rfl⟩,
    ⟨{ atPixel 1 [] [] with cur := some ⟨1, 2, 3, 4⟩, scratch := [0xC0] }, rfl, rfl, rfl, by decide, by decide, rfl⟩,
    ⟨{ atPixel 0 [] [] with cur := some ⟨1, 2, 3, 4⟩, scratch := [4] }, rfl, rfl, rfl, by decide, rfl⟩⟩

/-- Every clause, the failing ones at the first and at the last byte. -/
theorem witness_EndMarkerIsCheckedByteByByte :
    (∃ s : State, s.host = [] ∧ s.phase = .decEnd ∧ s.markAt = 0 ∧ s.input = bytesIn endMarker ++ []) ∧
    ∀ j ∈ [0, 7], j < 8 ∧ some (2 : Byte) ≠ endMarker[j]? ∧
      ∀ bad ∈ [InAnswer.byte 2, .eof, .ioErr 9], ∃ s : State, s.host = [] ∧ s.phase = .decEnd ∧ s.markAt = 0 ∧
        s.input = bytesIn (endMarker.take j) ++ bad :: [] :=
  ⟨⟨atEnd (bytesIn endMarker ++ []), rfl, rfl, rfl, rfl⟩, fun j hj =>
    ⟨by revert j; decide, by revert j; decide, fun bad _ =>
      ⟨atEnd (bytesIn (endMarker.take j) ++ bad :: []), rfl, rfl, rfl, rfl⟩⟩⟩

/-- A started DECODE or DECODE_CONFIG, whatever its input. -/
theorem freshDecode_meets (o : Op) (input : List InAnswer) : FreshDecode o (freshDecode o input) :=
  ⟨rfl, rfl, rfl, rfl, rfl, rfl, rfl, rfl, rfl, rfl, rfl, rfl, rfl, rfl, rfl⟩

/-- Scenario C, and a stream that ends or fails at offset 0 and at offset 3 (H3). -/
theorem witness_WrongMagicEndsTheOperation :
    (∀ o ∈ [Op.decode, .decodeConfig], (o = .decode ∨ o = .decodeConfig) ∧ ∀ input, FreshDecode o (freshDecode o input)) ∧
    [(0x71 : Byte), 0x6F, 0x69, 0x67] ≠ [0x71, 0x6F, 0x69, 0x66] ∧
    ∀ j ∈ [0, 3], j < 4 ∧ ∀ bad ∈ [InAnswer.eof, .ioErr 9],
      (freshDecode .decode (bytesIn ([0x71, 0x6F, 0x58, 0x66].take j) ++ bad :: [])).input =
        bytesIn ([0x71, 0x6F, 0x58, 0x66].take j) ++ bad :: [] :=
  ⟨fun o ho => ⟨by revert o; decide, freshDecode_meets o⟩, by decide, fun j hj => ⟨by revert j; decide, fun _ _ => rfl⟩⟩

/-- Every clause: CHANNELS 2 and 5, COLORSPACE 2, and each bit of the geometry mask (MAX_PIXELS is 100). -/
theorem witness_HeaderFieldsAreCheckedInOrder :
    (∀ input, FreshDecode .decode (freshDecode .decode input)) ∧ (freshDecode .decode []).maxPixels = 100 ∧
    (∀ c ∈ [(2 : Byte), 5], ¬(c = 3 ∨ c = 4)) ∧ (∀ c ∈ [(3 : Byte), 4], c = 3 ∨ c = 4) ∧
    ¬((2 : Byte) = 0 ∨ (2 : Byte) = 1) ∧
    (∀ wh ∈ [((0 : Byte), (5 : Byte), 1), (5, 0, 2), (0, 0, 3), (101, 1, 4)],
      (if bigEndian 0 0 0 wh.1 = 0 then 1 else 0) + (if bigEndian 0 0 0 wh.2.1 = 0 then 2 else 0) +
        (if bigEndian 0 0 0 wh.1 * bigEndian 0 0 0 wh.2.1 > 100 then 4 else 0) = wh.2.2) :=
  ⟨freshDecode_meets _, rfl, by decide, by decide, by decide, by decide⟩

/-- Both clauses, with as many pixels as MAX_PIXELS and with one. -/
theorem witness_GoodHeaderIsAccepted :
    (∀ o, FreshDecode o (freshDecode o (bytesIn (hdr 100 3 1) ++ []))) ∧
    ∀ w ∈ [(1 : Byte), 100], bigEndian 0 0 0 w ≠ 0 ∧ bigEndian 0 0 0 1 ≠ 0 ∧ bigEndian 0 0 0 w * bigEndian 0 0 0 1 ≤ 100 :=
  ⟨fun o => freshDecode_meets o _, by decide⟩

theorem witness_HeaderReadFailureEndsTheOperation :
    ∀ p ∈ [0, 13], ∀ bad ∈ [InAnswer.eof, .ioErr 9], ∃ s : State, s.host = [] ∧ s.phase = .decHeader ∧ s.pos = p ∧
      s.input = bad :: [] := fun p _ bad _ => ⟨{ freshDecode .decode [bad] with pos := p }, rfl, rfl, rfl, rfl⟩

/-- Every branch, at the bounds of the dimensions read as signed numbers (O1 to O7). -/
theorem witness_EncodeOptionsAreCheckedInOrder :
    (∀ w h : Word64, ∀ c f : Byte, ∃ s : State, s.host = .write 0 3 :: [] ∧ QuiescentPhase s.phase ∧ s.width = w ∧
      s.height = h ∧ s.channels = c ∧ s.colorspace = f) ∧
    (3 : Word64).toNat % 4 = 3 ∧
    (∀ w ∈ [(0 : Word64), 0xFFFFFFFFFFFFFFFF, 0x100000000], w.toInt ≤ 0 ∨ w.toInt ≥ 2 ^ 32) ∧
    (∀ w ∈ [(1 : Word64), 0xFFFFFFFF], ¬(w.toInt ≤ 0 ∨ w.toInt ≥ 2 ^ 32)) :=
  ⟨fun w h c f => ⟨{ blk with host := [.write 0 3], width := w, height := h, channels := c, colorspace := f }, rfl,
    .inl rfl, rfl, rfl, rfl, rfl⟩, by decide, by simp, by simp⟩

theorem witness_HeaderBytesAreWrittenInOrder :
    ∀ sink ∈ [List.replicate 14 OutAnswer.ok ++ [], List.replicate 0 .ok ++ .ioErr 9 :: [],
      List.replicate 13 .ok ++ .ioErr 9 :: []],
      ∃ s : State, s.host = [] ∧ s.phase = .encHeader ∧ s.opos = 0 ∧ s.byteSink = sink :=
  fun sink _ => ⟨freshEncode 2 [] sink, rfl, rfl, rfl, rfl⟩

/-- An encoder about to take a pixel. -/
theorem atPixel_meets (run : BitVec 6) (source : List Pixel) (sink : List OutAnswer) :
    AtPixel (atPixel run source sink) := ⟨rfl, rfl, rfl, rfl⟩

theorem witness_EqualPixelExtendsTheRun :
    ∀ run ∈ [(0 : BitVec 6), 60], ∃ s : State, AtPixel s ∧ s.run = run ∧ s.pixelSource = .pixel s.prev :: [] ∧
      s.run.toNat + 1 < 62 ∧ s.k + 1 < s.npix :=
  fun run hr => ⟨atPixel run [⟨0, 0, 0, 255⟩] [], atPixel_meets _ _ _, rfl, rfl, by revert run; decide,
    (by decide : 0 + 1 < 2)⟩

/-- A full run in the middle of an image, and a run of one at its end, with a sink that accepts and one that refuses. -/
theorem witness_FullOrFinalRunIsFlushed :
    ∀ sink ∈ [[OutAnswer.ok], [.ioErr 9]],
      (∃ s : State, AtPixel s ∧ s.pixelSource = .pixel s.prev :: [] ∧ s.run.toNat + 1 = 62 ∧ s.byteSink = sink) ∧
      (∃ s : State, AtPixel s ∧ s.pixelSource = .pixel s.prev :: [] ∧ s.run.toNat + 1 ≤ 62 ∧ s.k + 1 = s.npix ∧
        s.byteSink = sink) :=
  fun sink _ => ⟨⟨atPixel 61 [⟨0, 0, 0, 255⟩] sink, atPixel_meets _ _ _, rfl, rfl, rfl⟩,
    ⟨{ atPixel 0 [⟨0, 0, 0, 255⟩] sink with k := 1 }, ⟨rfl, rfl, rfl, rfl⟩, rfl, (by decide : 0 + 1 ≤ 62), rfl, rfl⟩⟩

/-- One pixel for each of the five chunks (N8, N12, N13, N17, N10), with and without a pending run. -/
theorem witness_DifferentPixelIsWrittenInPriorityOrder :
    (∀ run p sink, AtPixel (atPixel run [p] sink) ∧ (atPixel run [p] sink).pixelSource = .pixel p :: []) ∧
    (∀ p ∈ [(⟨0, 0, 0, 0⟩ : Pixel), ⟨1, 0, 0, 255⟩, ⟨2, 0, 0, 255⟩, ⟨8, 0, 0, 255⟩, ⟨0, 0, 0, 128⟩],
      p ≠ (atPixel 0 [p] []).prev) ∧
    (∀ run ∈ [(0 : BitVec 6), 1, 61], run.toNat ≤ 62) ∧
    [⟨0, 0, 0, 0⟩, ⟨1, 0, 0, 255⟩, ⟨2, 0, 0, 255⟩, ⟨8, 0, 0, 255⟩, ⟨0, 0, 0, 128⟩].map
        (chosenBytes ⟨0, 0, 0, 255⟩ State.reset.cache) =
      [[0x00], [0x7A], [0xA0, 0xA8], [0xFE, 8, 0, 0], [0xFF, 0, 0, 0, 0x80]] :=
  ⟨fun _ _ _ => ⟨⟨rfl, rfl, rfl, rfl⟩, rfl⟩, by decide, by decide, by decide⟩

/-- The RUN byte refused, and the last of the bytes refused. -/
theorem witness_RefusedByteLeavesPrevAndCache :
    ∀ j ∈ [0, 2], ∃ s : State, AtPixel s ∧ (⟨2, 0, 0, 255⟩ : Pixel) ≠ s.prev ∧ s.run.toNat = 3 ∧
      s.pixelSource = .pixel ⟨2, 0, 0, 255⟩ :: [] ∧
      j < ([BitVec.ofNat 8 (0xC0 + 2)] ++ chosenBytes s.prev s.cache ⟨2, 0, 0, 255⟩).length ∧
      s.byteSink = List.replicate j .ok ++ .ioErr 9 :: [] := by
  intro j hj
  refine ⟨atPixel 3 [⟨2, 0, 0, 255⟩] (List.replicate j .ok ++ .ioErr 9 :: []), ⟨rfl, rfl, rfl, rfl⟩,
    (by decide : (⟨2, 0, 0, 255⟩ : Pixel) ≠ ⟨0, 0, 0, 255⟩), rfl, rfl, ?_, rfl⟩
  fin_cases hj <;> decide

theorem witness_EndMarkerIsWrittenLast :
    ∀ sink ∈ [List.replicate 8 OutAnswer.ok ++ [], List.replicate 0 .ok ++ .ioErr 9 :: [],
      List.replicate 7 .ok ++ .ioErr 9 :: []],
      ∃ s : State, s.host = [] ∧ s.phase = .encEnd ∧ s.markAt = 0 ∧ s.byteSink = sink :=
  fun sink _ => ⟨{ atPixel 0 [] sink with phase := .encEnd, k := 2 }, rfl, rfl, rfl, rfl⟩

theorem witness_ChosenChunkDecodesToItsPixel : (⟨1, 0, 0, 255⟩ : Pixel) ≠ blk.prev := by decide

/-- Every register number of every clause. -/
theorem witness_RegisterReadsReturnTheirFields : ∀ n : Fin 12, ∃ s : State, s.host = .read n.val :: [] :=
  fun n => ⟨{ blk with host := [.read n.val] }, rfl⟩

/-- Busy at both ends of its range, and each quiescent phase. -/
theorem witness_RegisterWritesFollowTheirAccess :
    (∀ p n v, ∃ s : State, s.host = .write n v :: [] ∧ s.phase = p) ∧
    (∀ p ∈ [Phase.decHeader, .encEnd], 1 ≤ phaseNumber p ∧ phaseNumber p ≤ 6) ∧
    (∀ p ∈ [Phase.idle, .done, .error], phaseNumber p = 0 ∨ 7 ≤ phaseNumber p) ∧
    (∀ v ∈ [(0 : Word64), 4], v.toNat % 4 = 0) :=
  ⟨fun p n v => ⟨{ blk with host := [.write n v], phase := p }, rfl, rfl⟩, by decide, by decide, by simp⟩

theorem witness_CommandStartsADecode :
    ∀ v ∈ [(1 : Word64), 2], ∃ s : State, s.host = .write 0 v :: [] ∧ QuiescentPhase s.phase ∧
      (v.toNat % 4 = 1 ∨ v.toNat % 4 = 2) :=
  fun v hv => ⟨{ blk with host := [.write 0 v] }, rfl, .inl rfl, by revert v; simp⟩

theorem witness_ResetLeavesTheStatedValues : ∃ s : State, s.host = .reset :: [] ∧ s.phase = .decChunks :=
  ⟨{ atTag [] with host := [.reset] }, rfl, rfl⟩

theorem witness_QuiescentBlockDoesNothing :
    ∀ p ∈ [Phase.idle, .done, .error], ∃ s : State, s.host = [] ∧ s.phase = p ∧ QuiescentPhase p :=
  fun p hp => ⟨{ blk with phase := p }, rfl, rfl, by fin_cases hp <;> simp [QuiescentPhase]⟩

theorem witness_BadTagIsNeverRaised : ∃ s t : State, step s = .next t ∧ t.errCode = .badTag :=
  ⟨{ blk with errCode := .badTag }, _, rfl, rfl⟩

/-- One witness for each error the statement names. -/
theorem witness_ErrorsArePrecise :
    (∃ s t : State, s.host = [] ∧ s.phase ≠ .error ∧ step s = .next t ∧ t.phase = .error ∧ t.errCode = .truncated) ∧
    (∃ s t : State, s.host = [] ∧ s.phase ≠ .error ∧ step s = .next t ∧ t.phase = .error ∧ t.errCode = .ioError) :=
  ⟨⟨atEnd [.eof], _, rfl, by decide, rfl, rfl, rfl⟩, ⟨atEnd [.ioErr 9], _, rfl, by decide, rfl, rfl, rfl⟩⟩

theorem witness_PosCountsTheBytesConsumed : ∃ s t : State, s.host = [] ∧ step s = .next t ∧ t.pos = s.pos + 2 :=
  ⟨atTag (bytesIn [0xAA, 0x5C]), _, rfl, rfl, rfl⟩

/-- A step that writes bytes, one that emits a pixel and one that does neither. -/
theorem witness_OutputAdvancesInOrder :
    (∃ s t : State, s.host = [] ∧ step s = .next t ∧ t.opos = s.opos + 2 ∧ t.k = s.k + 1) ∧
    (∃ s t : State, s.host = [] ∧ step s = .next t ∧ s.phase = .decChunks ∧ t.k = s.k + 1) ∧
    (∃ s t : State, s.host = [] ∧ step s = .next t ∧ t.k = s.k) :=
  ⟨⟨atPixel 0 [⟨2, 0, 0, 255⟩] [.ok, .ok], _, rfl, rfl, rfl, rfl⟩, ⟨atTag (bytesIn [0xC0]), _, rfl, rfl, rfl, rfl⟩,
    ⟨atEnd [], _, rfl, rfl, rfl⟩⟩

theorem witness_FormatBytesDoNotChangeTheStream :
    (∃ s t : State, s.host = [] ∧ s.phase = .decChunks ∧ step s = .next t) ∧
    (∃ s t : State, s.host = [] ∧ s.phase = .decEnd ∧ step s = .next t) ∧
    (∃ s t : State, s.host = [] ∧ s.phase = .encChunks ∧ step s = .next t) ∧
    (∃ s t : State, s.host = [] ∧ s.phase = .encEnd ∧ step s = .next t) :=
  ⟨⟨atTag (bytesIn [0xC0]), _, rfl, rfl, rfl⟩, ⟨atEnd (bytesIn [0]), _, rfl, rfl, rfl⟩,
    ⟨atPixel 0 [⟨0, 0, 0, 255⟩] [], _, rfl, rfl, rfl⟩, ⟨{ atPixel 0 [] [.ok] with phase := .encEnd }, _, rfl, rfl, rfl⟩⟩

/-- Two states in PHASE DEC_HEADER that differ in `prev` and `run`. -/
theorem witness_HiddenStateIsUnobservable :
    ∃ s t s' : State, SameOutside s t ∧ step s = .next s' ∧ t.prev ≠ s.prev ∧ t.run ≠ s.run :=
  ⟨freshDecode .decode (bytesIn [0x71]),
    { freshDecode .decode (bytesIn [0x71]) with prev := ⟨1, 2, 3, 4⟩, run := 5 }, _,
    ⟨rfl, by rintro (h | h | h | h) <;> exact absurd h (by decide)⟩, rfl, by decide, by decide⟩

/-- A DECODE at its first tag is a good state. -/
theorem atTag_good : Inv (atTag (bytesIn [0xC0])) where
  cache := fun i => .inl (by simp [State.slot, atTag, blk, State.reset, Vector.get_eq_getElem])
  error := ⟨fun _ => ⟨rfl, rfl, rfl, rfl⟩, fun h => absurd h (by decide), by decide,
    fun e h => absurd h (by simp [atTag, blk, State.reset])⟩
  control := by constructor <;> decide
  count := by constructor <;> decide
  geometry := by constructor <;> decide
  run := by constructor <;> decide
  framing := by
    constructor <;> first | decide | skip
    all_goals exact fun p h => absurd h (by decide)
  limit := (by decide : 1 ≤ 100 ∧ 22 + 5 * 100 < 2 ^ 64)

/-- An ENCODE with a run of one pending, about to take a pixel, is a good state. -/
theorem atPixel_good : Inv { atPixel 1 [⟨0, 0, 0, 128⟩] [.ok] with k := 1, written := hdr 2 4 0 } where
  cache := fun i => .inl (by simp [State.slot, atPixel, freshEncode, blk, State.reset, Vector.get_eq_getElem])
  error := ⟨fun _ => ⟨rfl, rfl, rfl, rfl⟩, fun h => absurd h (by decide), by decide,
    fun e h => absurd h (by simp [atPixel, freshEncode, blk, State.reset])⟩
  control := by constructor <;> decide
  count := by constructor <;> decide
  geometry := by constructor <;> decide
  run := by constructor <;> decide
  framing := by
    constructor <;> first | decide | skip
    all_goals exact fun p _ h => absurd h (by simp [atPixel, freshEncode, blk, State.reset])
  limit := (by decide : 1 ≤ 100 ∧ 22 + 5 * 100 < 2 ^ 64)

/-- An ENCODE whose last pixel waits for its RUN chunk is a good state. -/
theorem inFlight_good :
    Inv { atPixel 1 [] [.ok] with k := 1, written := hdr 2 4 0, cur := some ⟨0, 0, 0, 255⟩, scratch := [0xC0] } where
  cache := fun i => .inl (by simp [State.slot, atPixel, freshEncode, blk, State.reset, Vector.get_eq_getElem])
  error := ⟨fun _ => ⟨rfl, rfl, rfl, rfl⟩, fun h => absurd h (by decide), by decide,
    fun e h => absurd h (by simp [atPixel, freshEncode, blk, State.reset])⟩
  control := by constructor <;> decide
  count := by constructor <;> decide
  geometry := by constructor <;> decide
  run := by constructor <;> decide
  framing := by
    constructor <;> first | decide | skip
    all_goals
      rintro p _ ⟨⟩
      decide
  limit := (by decide : 1 ≤ 100 ∧ 22 + 5 * 100 < 2 ^ 64)

theorem witness_CacheSlotsStayConsistent : ∃ s t : State, CacheInv s ∧ step s = .next t :=
  ⟨_, _, atTag_good.cache, rfl⟩

theorem witness_ErrorRecordStaysConsistent : ∃ s t : State, ErrorInv s ∧ step s = .next t :=
  ⟨_, _, atTag_good.error, rfl⟩

theorem witness_PhaseAndCountersStayConsistent :
    ∃ s t : State, ControlInv s ∧ CountInv s ∧ GeometryInv s ∧ step s = .next t :=
  ⟨_, _, atTag_good.control, atTag_good.count, atTag_good.geometry, rfl⟩

theorem witness_RunCounterStaysInRange : ∃ s t : State, CountInv s ∧ RunInv s ∧ step s = .next t :=
  ⟨_, _, atTag_good.count, atTag_good.run, rfl⟩

/-- The two clauses on the stream lengths: a DECODE step, and an ENCODE step between two pixels and inside one. -/
theorem witness_GoodStatesStayGood :
    (∃ s t : State, Inv s ∧ step s = .next t ∧ t.op = .decode) ∧
    (∃ s t : State, Inv s ∧ s.cur = none ∧ step s = .next t ∧ t.op = .encode) ∧
    (∃ s t : State, Inv s ∧ s.cur = some s.prev ∧ step s = .next t ∧ t.op = .encode) :=
  ⟨⟨_, _, atTag_good, rfl, rfl⟩, ⟨_, _, atPixel_good, rfl, rfl, rfl⟩, ⟨_, _, inFlight_good, rfl, rfl, rfl⟩⟩

/-- MAX_PIXELS 1, and 27 bytes. -/
theorem witness_DecodeEndsWhenItsChannelsAnswer :
    ∃ s : State, FreshDecode .decode s ∧ (∀ a ∈ s.input, a ≠ .wait) ∧ 22 + 5 * s.maxPixels ≤ s.input.length ∧
      s.pixelSink = List.replicate s.maxPixels .accept ++ [] :=
  ⟨{ freshDecode .decode (List.replicate 27 (.byte 0)) with maxPixels := 1, pixelSink := [.accept] },
    ⟨rfl, rfl, rfl, rfl, rfl, rfl, rfl, rfl, rfl, rfl, rfl, rfl, rfl, rfl, rfl⟩, by decide, by decide, rfl⟩

/-- A started ENCODE of an image of two pixels. -/
theorem freshEncode_meets (source : List Pixel) (sink : List OutAnswer) :
    FreshEncode (freshEncode 2 source sink) where
  host := rfl
  op := rfl
  phase := rfl
  opos := rfl
  k := rfl
  scratch := rfl
  cur := rfl
  markAt := rfl
  written := rfl
  width := (by decide : 0 < 2 ∧ 2 < 2 ^ 32)
  height := (by decide : 0 < 1 ∧ 1 < 2 ^ 32)
  npix := rfl
  channels := .inr rfl
  colorspace := .inl rfl

theorem witness_EncodeCompletesWhenItsChannelsServe :
    ∃ (s : State) (pixels : List Pixel), FreshEncode s ∧ pixels.length = s.npix ∧
      s.pixelSource = pixels.map .pixel ++ [] ∧ s.byteSink = List.replicate (22 + 6 * s.npix) .ok ++ [] :=
  ⟨freshEncode 2 [⟨1, 2, 3, 4⟩, ⟨1, 2, 3, 4⟩] (List.replicate 34 .ok), [⟨1, 2, 3, 4⟩, ⟨1, 2, 3, 4⟩],
    freshEncode_meets _ _, rfl, rfl, rfl⟩

/-- Both clauses, at the bound: two pixels against a MAX_PIXELS of 2 and of 1. -/
theorem witness_DecodingAnEncodedImageGivesItBack :
    ∀ limit ∈ [1, 2], ∃ (s t d : State), FreshEncode s ∧ runs 24 s t ∧ t.phase = .done ∧ FreshDecode .decode d ∧
      d.input = bytesIn t.written ++ [] ∧ d.pixelSink = List.replicate s.npix .accept ++ [] ∧ s.npix = 2 ∧
      d.maxPixels = limit :=
  fun limit _ => ⟨freshEncode 2 [⟨0, 0, 0, 255⟩, ⟨0, 0, 0, 255⟩] (List.replicate 23 .ok), _,
    { freshDecode .decode (bytesIn (hdr 2 4 0 ++ [0xC1] ++ endMarker)) with
      maxPixels := limit, pixelSink := [.accept, .accept] },
    freshEncode_meets _ _, rfl, rfl,
    ⟨rfl, rfl, rfl, rfl, rfl, rfl, rfl, rfl, rfl, rfl, rfl, rfl, rfl, rfl, rfl⟩, rfl, rfl, rfl, rfl⟩

end Sys2Proof.Tests
end

section
/-! PROOFS. What the channels and the chunk decoder do, as relations between the states before and after. -/

namespace Sys2Proof.Machine

open Sys2Proof.Statements

/-! ### Answers consumed -/

/-- Input answers are taken from the front, and `pos` advances by the bytes among them (R14, R42). -/
def Takes (s t : State) : Prop := ∃ consumed, s.input = consumed ++ t.input ∧ t.pos = s.pos + delivered consumed

/-- The byte sink's answers are taken from the front, and `opos` and the record grow by the bytes accepted (R17, R46). -/
def Sends (s t : State) : Prop :=
  ∃ answered bytes, s.byteSink = answered ++ t.byteSink ∧ bytes.length = accepted answered ∧
    t.opos = s.opos + bytes.length ∧ t.written = s.written ++ bytes

theorem delivered_append (xs ys : List InAnswer) : delivered (xs ++ ys) = delivered xs + delivered ys := by
  induction xs with
  | nil => simp [delivered]
  | cons x xs ih => cases x <;> simp [delivered, ih]; omega

theorem delivered_bytes (bytes : List Byte) : delivered (bytes.map .byte) = bytes.length := by
  induction bytes with
  | nil => rfl
  | cons b bytes ih => simp [delivered, ih]

theorem accepted_append (xs ys : List OutAnswer) : accepted (xs ++ ys) = accepted xs + accepted ys := by
  induction xs with
  | nil => simp [accepted]
  | cons x xs ih => cases x <;> simp [accepted, ih]; omega

theorem accepted_replicate (n : Nat) : accepted (List.replicate n .ok) = n := by
  induction n with
  | zero => rfl
  | succ n ih => simp [List.replicate_succ, accepted, ih]

/-- No answer is taken. -/
theorem Takes.none {s t : State} (hi : t.input = s.input) (hp : t.pos = s.pos) : Takes s t :=
  ⟨[], by simp [hi], by simp [hp, delivered]⟩

/-- One answer that delivers no byte is taken. -/
theorem Takes.gap {s t : State} {a : InAnswer} (ha : delivered [a] = 0) (hi : s.input = a :: t.input)
    (hp : t.pos = s.pos) : Takes s t := ⟨[a], by simp [hi], by simp [hp, ha]⟩

/-- One byte is taken. -/
theorem Takes.byte {s t : State} {b : Byte} (hi : s.input = .byte b :: t.input) (hp : t.pos = s.pos + 1) : Takes s t :=
  ⟨[.byte b], by simp [hi], by simp [hp, delivered]⟩

/-- No answer is taken and nothing is written. -/
theorem Sends.none {s t : State} (hb : t.byteSink = s.byteSink) (ho : t.opos = s.opos) (hw : t.written = s.written) :
    Sends s t := ⟨[], [], by simp [hb], rfl, by simp [ho], by simp [hw]⟩

/-- One answer that accepts no byte is taken. -/
theorem Sends.gap {s t : State} {a : OutAnswer} (ha : accepted [a] = 0) (hb : s.byteSink = a :: t.byteSink)
    (ho : t.opos = s.opos) (hw : t.written = s.written) : Sends s t :=
  ⟨[a], [], by simp [hb], by simp [ha], by simp [ho], by simp [hw]⟩

/-- One byte is accepted. -/
theorem Sends.byte {s t : State} {b : Byte} (hb : s.byteSink = .ok :: t.byteSink) (ho : t.opos = s.opos + 1)
    (hw : t.written = s.written ++ [b]) : Sends s t := ⟨[.ok], [b], by simp [hb], rfl, by simp [ho], hw⟩

theorem Sends.trans {s t u : State} (h₁ : Sends s t) (h₂ : Sends t u) : Sends s u := by
  obtain ⟨a₁, b₁, hb₁, hl₁, ho₁, hw₁⟩ := h₁
  obtain ⟨a₂, b₂, hb₂, hl₂, ho₂, hw₂⟩ := h₂
  refine ⟨a₁ ++ a₂, b₁ ++ b₂, by simp [hb₁, hb₂], ?_, ?_, by simp [hw₁, hw₂]⟩
  · rw [List.length_append, accepted_append, hl₁, hl₂]
  · rw [ho₂, ho₁, List.length_append, Nat.add_assoc]

/-! ### Operations that end in an error -/

/-- What an operation that ends with an error leaves unchanged, and how far its streams have moved (R128, R129). -/
structure FailFrame (s t : State) : Prop where
  op : t.op = s.op
  k : t.k = s.k
  npix : t.npix = s.npix
  prev : t.prev = s.prev
  cache : t.cache = s.cache
  emitted : t.emitted = s.emitted
  offer : t.offer = s.offer
  /-- A byte is never requested while a pixel waits for the sink (R43). -/
  idleSink : s.phase = .decChunks → s.offer = false
  /-- A run may have been counted or flushed before a byte was refused (R109; log 23). -/
  run : t.run = s.run ∨ t.run = 0 ∨ s.phase = .encChunks ∧ s.cur = none ∧ t.run = s.run + 1
  takes : Takes s t
  sends : Sends s t

/-- The operation has ended in PHASE ERROR, by an error that is neither NONE nor BAD_TAG (R128, R132). -/
structure Failed (s t : State) : Prop extends FailFrame s t where
  phase : t.phase = .error
  record : (t.errCode ≠ .none ∧ t.errCode ≠ .badTag ∧ t.errCode ≠ .ioError ∧ t.ioErr = s.ioErr) ∨
    ∃ e, t.errCode = .ioError ∧ t.ioErr = some e ∧ t.errInfo = Config.ioerrCode e

theorem FailFrame.raise {s u : State} (h : FailFrame s u) (hio : u.ioErr = s.ioErr) {code : ErrCode}
    (hcode : code ≠ .none ∧ code ≠ .badTag ∧ code ≠ .ioError) (offset : Nat) (info : Word64) :
    Failed s (raise code offset info u) where
  op := h.op
  k := h.k
  npix := h.npix
  prev := h.prev
  cache := h.cache
  emitted := h.emitted
  offer := h.offer
  idleSink := h.idleSink
  run := h.run
  takes := h.takes
  sends := h.sends
  phase := rfl
  record := .inl ⟨hcode.1, hcode.2.1, hcode.2.2, hio⟩

theorem FailFrame.raiseIo {s u : State} (h : FailFrame s u) (e : Config.IoErrT) (offset : Nat) :
    Failed s (raiseIo e offset u) where
  op := h.op
  k := h.k
  npix := h.npix
  prev := h.prev
  cache := h.cache
  emitted := h.emitted
  offer := h.offer
  idleSink := h.idleSink
  run := h.run
  takes := h.takes
  sends := h.sends
  phase := rfl
  record := .inr ⟨e, rfl, rfl, rfl⟩

/-! ### The three ends of a header -/

theorem headerComplete_config {s : State}
    (hm : decodeGeometryMask s.maxPixels s.width.toNat s.height.toNat = 0) (ho : s.op = .decodeConfig) :
    headerComplete s = { s with npix := s.width.toNat * s.height.toNat, phase := .done } := by
  simp [headerComplete, hm, ho]

theorem headerComplete_stream {s : State}
    (hm : decodeGeometryMask s.maxPixels s.width.toNat s.height.toNat = 0) (ho : s.op ≠ .decodeConfig) :
    headerComplete s =
      { initStream s with npix := s.width.toNat * s.height.toNat, phase := .decChunks } := by
  simp only [headerComplete, hm, ho, if_true, if_false]
  rfl

theorem headerComplete_bad {s : State}
    (hm : decodeGeometryMask s.maxPixels s.width.toNat s.height.toNat ≠ 0) :
    headerComplete s =
      raise .badGeometry 4 (BitVec.ofNat 64 (decodeGeometryMask s.maxPixels s.width.toNat s.height.toNat)) s := by
  simp only [headerComplete, hm, if_false]

/-! ### Chunks -/

theorem field_eq (t : Byte) (lo len : Nat) : field t lo len = t.toNat / 2 ^ lo % 2 ^ len := by
  rw [field, BitVec.extractLsb'_toNat, Nat.shiftRight_eq_div_pow]

/-- The tags of RUN are those below `0xFE` (R64, R68). -/
theorem field_le_of_chunkKind_run {t : Byte} (h : chunkKind t = .run) : field t 0 6 ≤ 61 := by
  have hmax : t.toNat < 256 := t.isLt
  unfold chunkKind at h
  split_ifs at h with hFE hFF h0 h1 h2
  have h254 : t.toNat ≠ 254 := fun heq => hFE (BitVec.eq_of_toNat_eq heq)
  have h255 : t.toNat ≠ 255 := fun heq => hFF (BitVec.eq_of_toNat_eq heq)
  rw [field_eq] at h0 h1 h2 ⊢
  omega

/-- A decoded run has at most 62 pixels (R68, R73). -/
theorem decode_run_le {bytes rest : List Byte} {n : Nat} (h : decode bytes = .ok (.run n) rest) : n ≤ 62 := by
  rcases bytes with _ | ⟨t, payload⟩
  · simp [decode] at h
  · simp only [decode] at h
    unfold decodePayload at h
    split at h <;> simp only [decodeIndex, decodeDiff, decodeLuma, decodeRun, DecodeResult.ok.injEq, reduceCtorEq,
      false_and, Instr.run.injEq] at h
    next hkind =>
      have := field_le_of_chunkKind_run hkind
      omega

/-- A complete chunk decodes (R72, R75). -/
theorem decode_of_chunkComplete {bytes : List Byte} (h : chunkComplete bytes = true) :
    ∃ i rest, decode bytes = .ok i rest := by
  rcases bytes with _ | ⟨t, payload⟩
  · simp [chunkComplete] at h
  · simp only [chunkComplete, decide_eq_true_eq] at h
    rw [decode]
    cases hkind : chunkKind t <;> simp only [hkind, chunkLength] at h
    case rgb =>
      match payload, h with
      | r :: g :: b :: tl, _ => exact ⟨_, _, rfl⟩
    case rgba =>
      match payload, h with
      | r :: g :: b :: a :: tl, _ => exact ⟨_, _, rfl⟩
    case luma =>
      match payload, h with
      | p :: tl, _ => exact ⟨_, _, rfl⟩
    case index | diff | run => exact ⟨_, _, rfl⟩

/-! ### An Advance of the decoder -/

/-- Bytes of a chunk have been read into the scratch. -/
structure Fetched (s u : State) : Prop where
  frame : u = { s with input := u.input, pos := u.pos, scratch := u.scratch }
  takes : Takes s u

/-- An Advance has its pixel: `prev` is with the sink (R91). -/
structure Advanced (s u : State) : Prop where
  frame : u = { s with
    input := u.input, pos := u.pos, scratch := u.scratch, prev := u.prev, cache := u.cache, run := u.run,
    offer := true }
  takes : Takes s u
  run : s.run.toNat ≤ 61 → u.run.toNat ≤ 61
  cache : u.cache = s.cache ∨ u.cache = cacheWrite s.cache u.prev

theorem fetched_of_takes {s : State} {bytes : List Byte} {gap rest : List InAnswer} (hgap : delivered gap = 0)
    (h : s.input = bytes.map .byte ++ (gap ++ rest)) : Fetched s (fetched s bytes rest) :=
  ⟨rfl, bytes.map .byte ++ gap, by simp [h, fetched], by simp [fetched, delivered_append, delivered_bytes, hgap]⟩

/-- Everything a fetch can do, as a relation (R41, R42). -/
theorem fetchChunk_cases (s : State) :
    ∃ u, Fetched s u ∧ ((chunkComplete u.scratch = true ∧ fetchChunk s = .ready u) ∨ fetchChunk s = .stop u ∨
      fetchChunk s = .stop (raise .truncated u.pos 0 u) ∨ ∃ e, fetchChunk s = .stop (raiseIo e u.pos u)) := by
  obtain ⟨bytes, -, ⟨rest, hi, hc, hf⟩ | ⟨-, h⟩⟩ := fetchBytes_cases 6 s (by decide) (by omega)
  · exact ⟨_, fetched_of_takes (gap := []) rfl hi, .inl ⟨hc, hf⟩⟩
  · rcases h with ⟨hi, hf⟩ | ⟨rest, hi, hf⟩ | ⟨rest, hi, hf⟩ | ⟨e, rest, hi, hf⟩
    · exact ⟨_, fetched_of_takes (gap := []) (rest := []) rfl (by simpa using hi), .inr (.inl hf)⟩
    · exact ⟨_, fetched_of_takes (gap := [.wait]) rfl hi, .inr (.inl hf)⟩
    · exact ⟨_, fetched_of_takes (gap := [.eof]) rfl hi, .inr (.inr (.inl hf))⟩
    · exact ⟨_, fetched_of_takes (gap := [.ioErr e]) rfl hi, .inr (.inr (.inr ⟨e, hf⟩))⟩

/-- Every chunk ends with a pixel offered, and only RUN sets the run counter (R93 to R98). -/
theorem exec_advanced {i : Instr} {s u : State} (h : Fetched s u) (hrun : ∀ n, i = .run n → n ≤ 62) :
    ∃ v, exec i u = .next v ∧ Advanced s v := by
  have hr : u.run = s.run := by rw [h.frame]
  have hcache : u.cache = s.cache := by rw [h.frame]
  have hwrite (p : Pixel) : Advanced s (offerPixel (writePixel p u)) :=
    ⟨by rw [h.frame]; rfl, h.takes, by simp [hr], .inr (by simp [hcache])⟩
  cases i with
  | run n =>
    have hn := hrun n rfl
    refine ⟨_, rfl, by rw [h.frame]; rfl, h.takes, fun _ => ?_, .inl hcache⟩
    simp only [offerPixel_run, BitVec.toNat_ofNat]
    omega
  | _ => exact ⟨_, rfl, hwrite _⟩

/-- Run continuation offers `prev` again (R92). -/
theorem runContinue_advanced {s : State} (h : s.run ≠ 0) : Advanced s (runContinue s) := by
  refine ⟨rfl, Takes.none rfl rfl, fun hle => ?_, .inl rfl⟩
  have hpos : s.run.toNat ≠ 0 := fun h0 => h (BitVec.eq_of_toNat_eq h0)
  rw [runContinue_run]
  bv_omega

end Sys2Proof.Machine
end

section
/-! PROOFS. What no host can see (R26, R148): `prev`, `run` and the cache outside the chunk and end-marker phases. -/

namespace Sys2Proof.Machine

open Sys2Proof.Statements

/-- The phases in which `prev`, `run` and the cache are the stream's own (R26). -/
def Phase.Streaming (p : Phase) : Prop := p = .decChunks ∨ p = .decEnd ∨ p = .encChunks ∨ p = .encEnd

/-- The state with other contents in the three registers no host can read. -/
def hide (p : Pixel) (r : BitVec 6) (c : Vector Pixel 64) (s : State) : State :=
  { s with prev := p, run := r, cache := c }

variable (p : Pixel) (r : BitVec 6) (c : Vector Pixel 64)

theorem sameOutside_refl (s : State) : SameOutside s s := ⟨rfl, fun _ => rfl⟩

/-- Outside the streaming phases the hidden registers may hold anything. -/
theorem sameOutside_hide {s : State} (h : ¬ s.phase.Streaming) : SameOutside s (hide p r c s) :=
  ⟨rfl, fun hin => absurd hin h⟩

/-- Two states that agree outside are equal, or the second is the first with other hidden contents. -/
theorem eq_or_hide_of_sameOutside {s t : State} (h : SameOutside s t) :
    t = s ∨ ¬ s.phase.Streaming ∧ t = hide t.prev t.run t.cache s := by
  by_cases hin : s.phase.Streaming
  · exact .inl (h.inside hin)
  · exact .inr ⟨hin, h.visible⟩

theorem not_streaming_done : ¬ Phase.done.Streaming := by simp [Phase.Streaming]
theorem not_streaming_error : ¬ Phase.error.Streaming := by simp [Phase.Streaming]
theorem not_streaming_decHeader : ¬ Phase.decHeader.Streaming := by simp [Phase.Streaming]

/-! ### The operations outside a stream do not look at the hidden registers -/

/-- The option check neither reads nor writes the hidden registers (R106). -/
theorem checkOptions_hide (s : State) : checkOptions (hide p r c s) = hide p r c (checkOptions s) := by
  simp only [checkOptions, apply_ite (hide p r c)]
  rfl

/-- A started ENCODE is writing its header or has ended with an error. -/
theorem startEncode_not_streaming (s : State) : ¬ (startEncode s).phase.Streaming := by
  unfold startEncode checkOptions
  split_ifs <;> simp [Phase.Streaming]

theorem startOp_sameOutside {s : State} (o : Op) (h : ¬ s.phase.Streaming) :
    SameOutside (startOp o s) (startOp o (hide p r c s)) := by
  cases o with
  | none => exact sameOutside_hide p r c h
  | decode => exact sameOutside_hide p r c not_streaming_decHeader
  | decodeConfig => exact sameOutside_hide p r c not_streaming_decHeader
  | encode =>
    have hcomm : startEncode (hide p r c s) = hide p r c (startEncode s) :=
      checkOptions_hide p r c (clearForStart .encode s)
    rw [startOp, startOp, hcomm]
    exact sameOutside_hide p r c (startEncode_not_streaming s)

theorem writeReg_sameOutside {s : State} (n : Nat) (v : Word64) (h : ¬ s.phase.Streaming) :
    SameOutside (writeReg n v s) (writeReg n v (hide p r c s)) := by
  have hbusy : (hide p r c s).busy = s.busy := rfl
  unfold writeReg
  rw [hbusy]
  split
  · exact sameOutside_hide p r c h
  · split
    · exact startOp_sameOutside p r c _ h
    all_goals exact sameOutside_hide p r c h

/-- No host action tells the hidden contents apart: no register shows them, and a reset sets them (R28, R31). -/
theorem hostAct_sameOutside {s : State} (a : HostAction) (h : ¬ s.phase.Streaming) :
    SameOutside (hostAct a s) (hostAct a (hide p r c s)) := by
  cases a with
  | write n v => exact writeReg_sameOutside p r c n v h
  | reset => exact sameOutside_refl _
  | _ => exact sameOutside_hide p r c h

/-- The end of the header: DECODE sets the hidden registers, DECODE_CONFIG and an error leave them (R9, R11, R13). -/
theorem headerComplete_sameOutside {s : State} :
    SameOutside (headerComplete s) (headerComplete (hide p r c s)) := by
  by_cases hm : decodeGeometryMask s.maxPixels s.width.toNat s.height.toNat = 0
  · by_cases ho : s.op = .decodeConfig
    · rw [headerComplete_config hm ho, headerComplete_config (s := hide p r c s) hm ho]
      exact sameOutside_hide p r c not_streaming_done
    · rw [headerComplete_stream hm ho, headerComplete_stream (s := hide p r c s) hm ho]
      exact sameOutside_refl _
  · rw [headerComplete_bad hm, headerComplete_bad (s := hide p r c s) hm]
    exact sameOutside_hide p r c not_streaming_error

theorem takeMagic_sameOutside {s : State} (m : BitVec 32) (h : ¬ s.phase.Streaming) :
    SameOutside (takeMagic m s) (takeMagic m (hide p r c s)) := by
  unfold takeMagic
  split
  · exact sameOutside_hide p r c h
  · exact sameOutside_hide p r c not_streaming_error

theorem takeChannels_sameOutside {s : State} (b : Byte) (h : ¬ s.phase.Streaming) :
    SameOutside (takeChannels b s) (takeChannels b (hide p r c s)) := by
  unfold takeChannels
  split
  · exact sameOutside_hide p r c h
  · exact sameOutside_hide p r c not_streaming_error

theorem takeColorspace_sameOutside (b : Byte) (s : State) :
    SameOutside (takeColorspace b s) (takeColorspace b (hide p r c s)) := by
  unfold takeColorspace
  split
  · exact headerComplete_sameOutside p r c
  · exact sameOutside_hide p r c not_streaming_error

theorem takeHeaderByte_sameOutside {s : State} (o : Nat) (b : Byte) (h : ¬ s.phase.Streaming) :
    SameOutside (takeHeaderByte o b s) (takeHeaderByte o b (hide p r c s)) := by
  unfold takeHeaderByte
  by_cases h3 : o = 3
  · simp only [h3, if_true]
    exact takeMagic_sameOutside p r c _ h
  by_cases h12 : o = 12
  · simp only [h12]
    exact takeChannels_sameOutside p r c b h
  by_cases h13 : o = 13
  · simp only [h13]
    exact takeColorspace_sameOutside p r c b s
  simp only [h3, h12, h13, if_false]
  split_ifs <;> exact sameOutside_hide p r c h

theorem decHeaderStep_sameOutside {s : State} (h : ¬ s.phase.Streaming) :
    SameOutside (decHeaderStep s) (decHeaderStep (hide p r c s)) := by
  have hin : (hide p r c s).input = s.input := rfl
  unfold decHeaderStep readByte
  rw [hin]
  rcases s.input with _ | ⟨_ | _ | _ | _, rest⟩
  · exact sameOutside_hide p r c h
  · exact takeHeaderByte_sameOutside p r c _ _ h
  · exact sameOutside_hide p r c not_streaming_error
  · exact sameOutside_hide p r c not_streaming_error
  · exact sameOutside_hide p r c h

/-- The last header byte sets the hidden registers; the others leave them (R105). -/
theorem encHeaderStep_sameOutside {s : State} (h : ¬ s.phase.Streaming) :
    SameOutside (encHeaderStep s) (encHeaderStep (hide p r c s)) := by
  have hout : (hide p r c s).byteSink = s.byteSink := rfl
  unfold encHeaderStep writeByte
  rw [hout]
  rcases s.byteSink with _ | ⟨_ | _ | _, rest⟩
  · exact sameOutside_hide p r c h
  · simp only [Xfer.andThen, headerByteWritten]
    change SameOutside (if s.opos + 1 < headerLength then _ else _) (if s.opos + 1 < headerLength then _ else _)
    split
    · exact sameOutside_hide p r c h
    · exact sameOutside_refl _
  · exact sameOutside_hide p r c not_streaming_error
  · exact sameOutside_hide p r c h

theorem blockStep_sameOutside {s s' : State} (h : ¬ s.phase.Streaming) (hs : blockStep s = .next s') :
    ∃ t', blockStep (hide p r c s) = .next t' ∧ SameOutside s' t' := by
  have hphase : (hide p r c s).phase = s.phase := rfl
  unfold blockStep at hs ⊢
  rw [hphase]
  cases hp : s.phase <;> simp only [hp] at hs ⊢
  case decHeader =>
    cases hs
    exact ⟨_, rfl, decHeaderStep_sameOutside p r c h⟩
  case encHeader =>
    cases hs
    exact ⟨_, rfl, encHeaderStep_sameOutside p r c h⟩
  case idle | done | error =>
    cases hs
    exact ⟨_, rfl, sameOutside_hide p r c h⟩
  all_goals exact absurd (by simp [Phase.Streaming, hp]) h

theorem step_sameOutside {s s' : State} (h : ¬ s.phase.Streaming) (hs : step s = .next s') :
    ∃ t', step (hide p r c s) = .next t' ∧ SameOutside s' t' := by
  have hhost : (hide p r c s).host = s.host := rfl
  unfold step machineStep at hs ⊢
  rw [hhost]
  split at hs
  · exact blockStep_sameOutside p r c h hs
  · exact blockStep_sameOutside p r c (s := { s with host := _ }) h hs
  · cases hs
    exact ⟨_, rfl, hostAct_sameOutside p r c (s := { s with host := _ }) _ h⟩

/-- Settles O48: in the streaming phases the two states are equal, and outside them every operation commutes with other
hidden contents or overwrites them. -/
theorem hiddenStateIsUnobservable : Obligations.HiddenStateIsUnobservable := by
  intro s t s' hst hs
  rcases eq_or_hide_of_sameOutside hst with rfl | ⟨hout, ht⟩
  · exact ⟨s', hs, sameOutside_refl s'⟩
  · rw [ht]
    exact step_sameOutside _ _ _ hout hs

end Sys2Proof.Machine
end

section
/-! PROOFS. The host port: register reads and writes, the start of a DECODE, the hardware reset (R27 to R31). -/

namespace Sys2Proof.Machine

open Sys2Proof.Statements

/-- A register access or a reset takes one step, which does nothing else. -/
theorem step_hostAct {s : State} {a : HostAction} {rest : List HostAction} (h : s.host = a :: rest) (ha : a ≠ .pass) :
    step s = .next (hostAct a { s with host := rest }) := by
  unfold step machineStep
  rw [h]
  cases a with
  | pass => exact absurd rfl ha
  | _ => rfl

/-! ### Codes and words -/

theorem phase_code_toNat (p : Phase) : p.code.toNat = phaseNumber p := by cases p <;> rfl

theorem op_code_toNat (o : Op) : o.code.toNat = opNumber o := by cases o <;> rfl

theorem errCode_code_toNat (c : ErrCode) : c.code.toNat = errNumber c := by cases c <;> rfl

/-- The value of two bit fields side by side. -/
theorem toNat_append_eq_add {m n : Nat} (x : BitVec m) (y : BitVec n) : (x ++ y).toNat = x.toNat * 2 ^ n + y.toNat := by
  rw [BitVec.toNat_append, ← Nat.shiftLeft_add_eq_or_of_lt y.isLt, Nat.shiftLeft_eq]

theorem statusWord_toNat (s : State) :
    s.statusWord.toNat = phaseNumber s.phase + 16 * opNumber s.op + 256 * errNumber s.errCode := by
  simp only [State.statusWord, toNat_append_eq_add, phase_code_toNat, op_code_toNat, errCode_code_toNat,
    BitVec.toNat_ofNat]
  omega

theorem formatWord_toNat (s : State) : s.formatWord.toNat = s.channels.toNat + 256 * s.colorspace.toNat := by
  simp only [State.formatWord, toNat_append_eq_add]
  omega

/-- A register of 16 bits reads as its own value. -/
theorem toNat_setWidth_word64 (w : BitVec 16) : (w.setWidth 64).toNat = w.toNat :=
  BitVec.toNat_setWidth_of_le (by decide)

theorem byteCount_toNat (s : State) :
    s.byteCount.toNat = if s.op = .encode then s.opos % 2 ^ 64 else if s.op = .none then 0 else s.pos % 2 ^ 64 := by
  unfold State.byteCount
  cases s.op <;> simp

/-- Register numbers 10 and above are reserved and read 0 (R28). -/
theorem readReg_reserved {n : Nat} (s : State) (h : 10 ≤ n) : readReg n s = 0 := by
  obtain ⟨m, rfl⟩ := Nat.exists_eq_add_of_le' h
  rfl

/-- Settles O37: the value of each register number, over one equation for a read. -/
theorem registerReadsReturnTheirFields : Obligations.RegisterReadsReturnTheirFields := by
  intro s n rest h
  refine ⟨readReg n { s with host := rest }, step_hostAct h (by simp), ?_, ?_, ?_, ?_, ?_, ?_, ?_, ?_, ?_, ?_, ?_⟩
  · rintro rfl
    rfl
  · rintro rfl
    exact (toNat_setWidth_word64 _).trans (statusWord_toNat s)
  · rintro rfl
    rfl
  · rintro rfl
    rfl
  · rintro rfl
    exact (toNat_setWidth_word64 _).trans (formatWord_toNat s)
  · rintro rfl
    exact BitVec.toNat_ofNat s.k 64
  · rintro rfl
    exact byteCount_toNat s
  · rintro rfl
    rfl
  · rintro rfl
    rfl
  · rintro rfl
    exact BitVec.toNat_ofNat s.maxPixels 64
  · exact readReg_reserved _

/-! ### Writes -/

theorem busy_iff_phaseNumber (p : Phase) : p.busy = true ↔ 1 ≤ phaseNumber p ∧ phaseNumber p ≤ 6 := by
  cases p <;> decide

theorem not_busy_of_quiescent {p : Phase} (h : QuiescentPhase p) : p.busy = false := by
  rcases h with rfl | rfl | rfl <;> rfl

/-- While the block is busy a write has no effect (R29, R157). -/
theorem writeReg_busy {s : State} (n : Nat) (v : Word64) (h : s.phase.busy = true) : writeReg n v s = s := if_pos h

/-- While it is quiescent, a write of CMD starts the operation of bits 1:0 (R29; log 10). -/
theorem writeReg_cmd {s : State} (v : Word64) (h : s.phase.busy = false) :
    writeReg 0 v s = startOp (Op.ofCode (v.extractLsb' 0 2)) s := by
  simp [writeReg, State.busy, h, writeCmd]

theorem writeReg_width {s : State} (v : Word64) (h : s.phase.busy = false) :
    writeReg 2 v s = { s with width := v } := by
  simp [writeReg, State.busy, h]

theorem writeReg_height {s : State} (v : Word64) (h : s.phase.busy = false) :
    writeReg 3 v s = { s with height := v } := by
  simp [writeReg, State.busy, h]

theorem writeReg_format {s : State} (v : Word64) (h : s.phase.busy = false) :
    writeReg 4 v s = { s with channels := v.extractLsb' 0 8, colorspace := v.extractLsb' 8 8 } := by
  simp [writeReg, State.busy, h]

/-- STATUS and the registers from 5 up are not written (R28). -/
theorem writeReg_readOnly {s : State} {n : Nat} (v : Word64) (hn : n = 1 ∨ 5 ≤ n) : writeReg n v s = s := by
  unfold writeReg
  split
  · rfl
  · rcases hn with rfl | hn
    · rfl
    · obtain ⟨m, rfl⟩ := Nat.exists_eq_add_of_le' hn
      rfl

/-- Bits 1:0 of a CMD value, as the operation they name (R21). -/
theorem cmd_ofCode (v : Word64) (o : Op) (h : v.toNat % 4 = opNumber o) : Op.ofCode (v.extractLsb' 0 2) = o := by
  have hcode : v.extractLsb' 0 2 = o.code := by
    apply BitVec.eq_of_toNat_eq
    rw [op_code_toNat, BitVec.extractLsb'_toNat, Nat.shiftRight_zero]
    exact h
  rw [hcode]
  cases o <;> decide

/-- Bits 15:8 of a written value. -/
theorem extractLsb'_eight (v : Word64) (lo : Nat) : v.extractLsb' lo 8 = BitVec.ofNat 8 (v.toNat / 2 ^ lo) := by
  apply BitVec.eq_of_toNat_eq
  rw [BitVec.extractLsb'_toNat, Nat.shiftRight_eq_div_pow, BitVec.toNat_ofNat]

/-- Settles O38: one equation per register number. -/
theorem registerWritesFollowTheirAccess : Obligations.RegisterWritesFollowTheirAccess := by
  intro s n v rest h quiet
  have hstep : step s = .next (writeReg n v quiet) := step_hostAct h (by simp)
  rw [hstep]
  refine ⟨fun hbusy => ?_, fun hquiet => ?_⟩
  · rw [writeReg_busy (s := quiet) n v ((busy_iff_phaseNumber s.phase).2 hbusy)]
  · have hb : quiet.phase.busy = false := by
      rw [Bool.eq_false_iff, Ne, busy_iff_phaseNumber]
      change ¬(1 ≤ phaseNumber s.phase ∧ phaseNumber s.phase ≤ 6)
      omega
    refine ⟨?_, ?_, ?_, ?_, ?_⟩
    · rintro rfl hv
      rw [writeReg_cmd v hb, cmd_ofCode v .none hv, startOp]
    · rintro rfl
      rw [writeReg_width v hb]
    · rintro rfl
      rw [writeReg_height v hb]
    · rintro rfl
      rw [writeReg_format v hb, extractLsb'_eight v 0, extractLsb'_eight v 8, pow_zero, Nat.div_one]
      rfl
    · intro hn
      rw [writeReg_readOnly v hn]

/-- Settles O39: the write selects the operation, and starting it clears the state. -/
theorem commandStartsADecode : Obligations.CommandStartsADecode := by
  intro s v rest h hq hv
  have hb : s.phase.busy = false := not_busy_of_quiescent hq
  rw [step_hostAct h (by simp), hostAct, writeReg_cmd (s := { s with host := rest }) v hb]
  rcases hv with hv | hv
  · rw [cmd_ofCode v .decode hv, if_pos hv]
    rfl
  · rw [cmd_ofCode v .decodeConfig hv, if_neg (by omega)]
    rfl

/-! ### Reset -/

/-- Settles O40: every field of the reset state is the stated value. -/
theorem resetLeavesTheStatedValues : Obligations.ResetLeavesTheStatedValues := by
  intro s rest h
  refine ⟨hardReset { s with host := rest }, step_hostAct h (by simp), rfl, rfl, rfl, rfl, rfl, rfl, rfl, rfl, rfl, rfl,
    rfl, rfl, rfl, rfl, rfl, fun i => ?_, rfl, rfl, rfl⟩
  rw [hardReset_cache]
  simp [State.reset, Vector.get_eq_getElem, Pixel.zero]

/-- The value of MAX_PIXELS is legal, whatever the open parameter is (R7). -/
theorem limitInv_reset : LimitInv State.reset := by
  have hlt : Config.maxPixelsIndex % Config.maxPixelsCount < Config.maxPixelsCount :=
    Nat.mod_lt _ (by decide)
  have hcount : 5 * Config.maxPixelsCount ≤ 2 ^ 64 - 23 := Nat.mul_div_le _ 5
  constructor <;> simp only [State.reset, Config.maxPixels] <;> omega

theorem cacheInv_reset : CacheInv State.reset :=
  fun i => .inl (by simp [State.slot, State.reset, Vector.get_eq_getElem])

/-- Settles O49: nothing has begun, so each clause is about a value R31 states or a phase that is not on. -/
theorem resetStateIsGood : Obligations.ResetStateIsGood where
  cache := cacheInv_reset
  error := by constructor <;> simp [State.reset]
  control := by constructor <;> simp [State.reset]
  count := by constructor <;> simp [State.reset]
  geometry := by constructor <;> simp [State.reset]
  run := by constructor <;> simp [State.reset]
  framing := by constructor <;> simp [State.reset]
  limit := limitInv_reset

end Sys2Proof.Machine
end

section
/-! PROOFS. One inversion of a block step: every move the block can make, with the state it leads to. -/

namespace Sys2Proof.Machine

open Sys2Proof.Statements

/-! ### The encoder between two pixels -/

/-- Bytes of the pixel in flight, or of the run before it, have gone to the sink (R107, R109, R110). -/
structure InFlight (s u : State) : Prop where
  frame : u = { s with
    pixelSource := u.pixelSource, byteSink := u.byteSink, opos := u.opos, written := u.written, scratch := u.scratch,
    run := u.run, cur := u.cur }
  run : u.run = s.run ∨ u.run = 0 ∨ s.cur = none ∧ u.run = s.run + 1
  sends : Sends s u

theorem InFlight.refl (s : State) : InFlight s s := ⟨rfl, .inl rfl, Sends.none rfl rfl rfl⟩

/-- The scratch is loaded with other bytes to write. -/
theorem InFlight.load {s u : State} (h : InFlight s u) (bytes : List Byte) : InFlight s { u with scratch := bytes } :=
  ⟨by rw [h.frame], h.run, h.sends⟩

/-- The run has been flushed. -/
theorem InFlight.clearRun {s u : State} (h : InFlight s u) : InFlight s { u with run := 0 } :=
  ⟨by rw [h.frame], .inr (.inl rfl), h.sends⟩

/-- Bytes from the scratch have been accepted. -/
theorem InFlight.sent {s u : State} (h : InFlight s u) {bytes : List Byte} {gap sink : List OutAnswer}
    (hgap : accepted gap = 0) (hs : u.byteSink = List.replicate bytes.length .ok ++ (gap ++ sink)) (left : List Byte) :
    InFlight s (sent u bytes left sink) :=
  ⟨by rw [h.frame]; rfl, h.run, h.sends.trans ⟨List.replicate bytes.length .ok ++ gap, bytes,
    by simp [hs, Machine.sent], by simp [accepted_append, accepted_replicate, hgap], rfl, rfl⟩⟩

theorem InFlight.failFrame {s u : State} (h : InFlight s u) (hp : s.phase = .encChunks) : FailFrame s u where
  op := by rw [h.frame]
  k := by rw [h.frame]
  npix := by rw [h.frame]
  prev := by rw [h.frame]
  cache := by rw [h.frame]
  emitted := by rw [h.frame]
  offer := by rw [h.frame]
  idleSink := by simp [hp]
  run := h.run.imp_right (·.imp_right (⟨hp, ·⟩))
  takes := Takes.none (by rw [h.frame]) (by rw [h.frame])
  sends := h.sends

/-! ### The moves of the block -/

/-- Every move of the block, phase by phase (R22): the state after one step. -/
inductive BlockMove (s : State) : State → Prop
  /-- A quiescent block does nothing (R143). -/
  | quiet (phase : s.phase.busy = false) : BlockMove s s
  /-- A channel makes the block wait (R41, R43, R45, R46). -/
  | waits (input : List InAnswer) (source : List SourceOffer) (sink : List OutAnswer)
      (takes : Takes s { s with input := input, pixelSource := source, byteSink := sink })
      (sends : Sends s { s with input := input, pixelSource := source, byteSink := sink }) :
      BlockMove s { s with input := input, pixelSource := source, byteSink := sink }
  /-- The operation ends with an error (R128). -/
  | fails {t : State} (phase : s.phase.busy = true) (h : Failed s t) : BlockMove s t
  /-- A header byte of the magic or of a dimension (R80, R81). -/
  | headerField {b : Byte} {rest : List InAnswer} (left : List Byte) (w h : Word64) (phase : s.phase = .decHeader)
      (input : s.input = .byte b :: rest) (channelsByte : s.pos ≠ 12) (colorspaceByte : s.pos ≠ 13)
      (width : w = s.width ∨ w.toNat < 2 ^ 32) (height : h = s.height ∨ h.toNat < 2 ^ 32) :
      BlockMove s { s with input := rest, pos := s.pos + 1, scratch := left, width := w, height := h }
  /-- A good channels byte (R82). -/
  | headerChannels {b : Byte} {rest : List InAnswer} (phase : s.phase = .decHeader) (input : s.input = .byte b :: rest)
      (channelsByte : s.pos = 12) (legal : legalChannels b = true) :
      BlockMove s { s with input := rest, pos := s.pos + 1, channels := b }
  /-- The last byte of a good header, in DECODE_CONFIG (R86). -/
  | configRead {b : Byte} {rest : List InAnswer} (phase : s.phase = .decHeader) (input : s.input = .byte b :: rest)
      (op : s.op = .decodeConfig) :
      BlockMove s { s with
        input := rest, pos := s.pos + 1, colorspace := b, npix := s.width.toNat * s.height.toNat, phase := .done }
  /-- The last byte of a good header, in DECODE (R83, R84, R90). -/
  | streamBegun {b : Byte} {rest : List InAnswer} (phase : s.phase = .decHeader) (input : s.input = .byte b :: rest)
      (colorspaceByte : s.pos = 13) (op : s.op ≠ .decodeConfig) (legal : legalColorspace b = true)
      (mask : decodeGeometryMask s.maxPixels s.width.toNat s.height.toNat = 0) :
      BlockMove s { initStream s with
        input := rest, pos := s.pos + 1, colorspace := b, npix := s.width.toNat * s.height.toNat, phase := .decChunks }
  /-- Some bytes of a chunk, not all (R42). -/
  | fetching {u : State} (phase : s.phase = .decChunks) (offer : s.offer = false) (h : Fetched s u) : BlockMove s u
  /-- A pixel is offered to the sink, which is not ready (R43). -/
  | offers {u : State} (sink : List SinkAnswer) (phase : s.phase = .decChunks) (h : Advanced s u) :
      BlockMove s { u with pixelSink := sink }
  /-- A pixel is accepted by the sink (R43, R90). -/
  | delivers {u : State} (sink : List SinkAnswer) (phase : s.phase = .decChunks) (h : Advanced s u) :
      BlockMove s (pixelAccepted { u with pixelSink := sink })
  /-- A byte of the end marker is as it should be (R100). -/
  | markRead {b : Byte} {rest : List InAnswer} (phase : s.phase = .decEnd) (input : s.input = .byte b :: rest) :
      BlockMove s (markDone { s with input := rest, pos := s.pos + 1 })
  /-- A header byte, not the last (R88). -/
  | headerSent {rest : List OutAnswer} (b : Byte) (phase : s.phase = .encHeader) (sink : s.byteSink = .ok :: rest)
      (more : s.opos + 1 < headerLength) :
      BlockMove s { s with byteSink := rest, opos := s.opos + 1, written := s.written ++ [b] }
  /-- The last header byte (R105). -/
  | encodingBegun {rest : List OutAnswer} (b : Byte) (phase : s.phase = .encHeader) (sink : s.byteSink = .ok :: rest) :
      BlockMove s { initStream s with
        byteSink := rest, opos := s.opos + 1, written := s.written ++ [b], phase := .encChunks }
  /-- The sink makes a pixel wait (R46, R56). -/
  | stalls {u : State} (p : Pixel) (phase : s.phase = .encChunks) (h : InFlight s u) (cur : u.cur = some p) :
      BlockMove s u
  /-- A pixel equal to `prev` extends the run (R108). -/
  | counts {u : State} (phase : s.phase = .encChunks) (h : InFlight s u) (cur : s.cur = none) (run : u.run = s.run + 1)
      (notFull : u.run ≠ 62) (notLast : s.k + 1 ≠ s.npix) : BlockMove s (pixelEncoded u)
  /-- A full or final run has been written (R109). -/
  | flushes {u : State} (phase : s.phase = .encChunks) (h : InFlight s u) (run : u.run = 0) :
      BlockMove s (pixelEncoded u)
  /-- The chunk of a pixel has been written (R117). -/
  | encodes {u : State} (p : Pixel) (phase : s.phase = .encChunks) (h : InFlight s u) (run : u.run = 0) :
      BlockMove s (pixelEncoded (writePixel p u))
  /-- A byte of the end marker is accepted (R105). -/
  | markSent {rest : List OutAnswer} (b : Byte) (phase : s.phase = .encEnd) (sink : s.byteSink = .ok :: rest) :
      BlockMove s (markDone { s with byteSink := rest, opos := s.opos + 1, written := s.written ++ [b] })

/-! ### Reads and writes of one byte -/

theorem busy_of_phase {s : State} {p : Phase} (h : s.phase = p) (hp : p.busy = true) : s.phase.busy = true := h ▸ hp

/-- Nothing but the streams has moved. -/
theorem failFrame_streams {s : State} (input : List InAnswer) (sink : List OutAnswer)
    (hidle : s.phase = .decChunks → s.offer = false) (takes : Takes s { s with input := input, byteSink := sink })
    (sends : Sends s { s with input := input, byteSink := sink }) :
    FailFrame s { s with input := input, byteSink := sink } :=
  ⟨rfl, rfl, rfl, rfl, rfl, rfl, rfl, hidle, .inl rfl, takes, sends⟩

/-- Outside the chunk phase a byte request that is not served is a wait or an error (R41). -/
theorem readByte_moves {s : State} (hb : s.phase.busy = true) (hp : s.phase ≠ .decChunks) :
    (∃ b rest, s.input = .byte b :: rest ∧ readByte s = .byte b { s with input := rest, pos := s.pos + 1 }) ∨
    ∃ t, readByte s = .stop t ∧ BlockMove s t := by
  have hidle : s.phase = .decChunks → s.offer = false := fun h => absurd h hp
  rcases readByte_cases s with ⟨hi, hr⟩ | ⟨rest, hi, hr⟩ | ⟨b, rest, hi, hr⟩ | ⟨rest, hi, hr⟩ | ⟨e, rest, hi, hr⟩
  · exact .inr ⟨_, hr, .waits s.input s.pixelSource s.byteSink (Takes.none rfl rfl) (Sends.none rfl rfl rfl)⟩
  · exact .inr ⟨_, hr, .waits rest s.pixelSource s.byteSink (Takes.gap rfl hi rfl) (Sends.none rfl rfl rfl)⟩
  · exact .inl ⟨b, rest, hi, hr⟩
  · have hf := failFrame_streams rest s.byteSink hidle (Takes.gap rfl hi rfl) (Sends.none rfl rfl rfl)
    exact .inr ⟨_, hr, .fails hb (hf.raise rfl (by decide) _ _)⟩
  · have hf := failFrame_streams rest s.byteSink hidle (Takes.gap rfl hi rfl) (Sends.none rfl rfl rfl)
    exact .inr ⟨_, hr, .fails hb (hf.raiseIo e _)⟩

/-- Outside the chunk phase a byte write that is not accepted is a wait or an error (R46). -/
theorem writeByte_moves {s : State} (b : Byte) (hb : s.phase.busy = true) (hp : s.phase ≠ .decChunks) :
    (∃ rest, s.byteSink = .ok :: rest ∧
      writeByte b s = .ok { s with byteSink := rest, opos := s.opos + 1, written := s.written ++ [b] }) ∨
    ∃ t, writeByte b s = .stop t ∧ BlockMove s t := by
  have hidle : s.phase = .decChunks → s.offer = false := fun h => absurd h hp
  rcases writeByte_cases b s with ⟨hi, hr⟩ | ⟨rest, hi, hr⟩ | ⟨rest, hi, hr⟩ | ⟨e, rest, hi, hr⟩
  · exact .inr ⟨_, hr, .waits s.input s.pixelSource s.byteSink (Takes.none rfl rfl) (Sends.none rfl rfl rfl)⟩
  · exact .inr ⟨_, hr, .waits s.input s.pixelSource rest (Takes.none rfl rfl) (Sends.gap rfl hi rfl rfl)⟩
  · exact .inl ⟨rest, hi, hr⟩
  · have hf := failFrame_streams s.input rest hidle (Takes.none rfl rfl) (Sends.gap rfl hi rfl rfl)
    exact .inr ⟨_, hr, .fails hb (hf.raiseIo e _)⟩

/-! ### The header of a DECODE -/

/-- A byte that fails its check has been read; the registers it stands in do not matter for the error. -/
theorem headerByte_failFrame {s : State} {b : Byte} {rest : List InAnswer} (hp : s.phase = .decHeader)
    (hi : s.input = .byte b :: rest) (left : List Byte) (c f : Byte) :
    FailFrame s { s with input := rest, pos := s.pos + 1, scratch := left, channels := c, colorspace := f } :=
  ⟨rfl, rfl, rfl, rfl, rfl, rfl, rfl, by simp [hp], .inl rfl, Takes.byte hi rfl, Sends.none rfl rfl rfl⟩

theorem takeMagic_moves {s : State} {b : Byte} {rest : List InAnswer} (m : BitVec 32) (hp : s.phase = .decHeader)
    (hi : s.input = .byte b :: rest) (ho : s.pos = 3) :
    BlockMove s (takeMagic m { s with input := rest, pos := s.pos + 1, scratch := [] }) := by
  unfold takeMagic
  split
  · exact .headerField [] s.width s.height hp hi (by omega) (by omega) (.inl rfl) (.inl rfl)
  · exact .fails (busy_of_phase hp rfl)
      ((headerByte_failFrame hp hi [] s.channels s.colorspace).raise rfl (by decide) _ _)

theorem takeChannels_moves {s : State} {b : Byte} {rest : List InAnswer} (hp : s.phase = .decHeader)
    (hi : s.input = .byte b :: rest) (ho : s.pos = 12) :
    BlockMove s (takeChannels b { s with input := rest, pos := s.pos + 1 }) := by
  unfold takeChannels
  split
  · next hlegal => exact .headerChannels hp hi ho hlegal
  · exact .fails (busy_of_phase hp rfl)
      ((headerByte_failFrame hp hi s.scratch b s.colorspace).raise rfl (by decide) _ _)

theorem headerComplete_moves {s u : State} {b : Byte} {rest : List InAnswer} (hp : s.phase = .decHeader)
    (hi : s.input = .byte b :: rest) (ho : s.pos = 13) (hlegal : legalColorspace b = true)
    (hu : u = { s with input := rest, pos := s.pos + 1, colorspace := b }) : BlockMove s (headerComplete u) := by
  by_cases hm : decodeGeometryMask u.maxPixels u.width.toNat u.height.toNat = 0
  · by_cases hop : u.op = .decodeConfig
    · rw [headerComplete_config hm hop]
      subst hu
      exact .configRead hp hi hop
    · rw [headerComplete_stream hm hop]
      subst hu
      exact .streamBegun hp hi ho hop hlegal hm
  · rw [headerComplete_bad hm]
    subst hu
    exact .fails (busy_of_phase hp rfl)
      ((headerByte_failFrame hp hi s.scratch s.channels b).raise rfl (by decide) _ _)

theorem takeColorspace_moves {s : State} {b : Byte} {rest : List InAnswer} (hp : s.phase = .decHeader)
    (hi : s.input = .byte b :: rest) (ho : s.pos = 13) :
    BlockMove s (takeColorspace b { s with input := rest, pos := s.pos + 1 }) := by
  unfold takeColorspace
  split
  · next hlegal => exact headerComplete_moves hp hi ho hlegal rfl
  · exact .fails (busy_of_phase hp rfl)
      ((headerByte_failFrame hp hi s.scratch s.channels b).raise rfl (by decide) _ _)

/-- A dimension of four bytes is below `2^32` (R81). -/
theorem scratchWord_lt (bytes : List Byte) : ((scratchWord bytes).setWidth 64).toNat < 2 ^ 32 := by
  rw [BitVec.toNat_setWidth_of_le (by decide)]
  exact (scratchWord bytes).isLt

theorem takeHeaderByte_moves {s : State} {b : Byte} {rest : List InAnswer} (hp : s.phase = .decHeader)
    (hi : s.input = .byte b :: rest) :
    BlockMove s (takeHeaderByte s.pos b { s with input := rest, pos := s.pos + 1 }) := by
  unfold takeHeaderByte
  dsimp only
  split_ifs with h3 h7 h11 h12 h13
  · exact takeMagic_moves _ hp hi h3
  · exact .headerField [] _ s.height hp hi (by omega) (by omega) (.inr (scratchWord_lt _)) (.inl rfl)
  · exact .headerField [] s.width _ hp hi (by omega) (by omega) (.inl rfl) (.inr (scratchWord_lt _))
  · exact takeChannels_moves hp hi h12
  · exact takeColorspace_moves hp hi h13
  · exact .headerField _ s.width s.height hp hi h12 h13 (.inl rfl) (.inl rfl)

theorem decHeaderStep_moves {s : State} (hp : s.phase = .decHeader) : BlockMove s (decHeaderStep s) := by
  unfold decHeaderStep
  rcases readByte_moves (busy_of_phase hp rfl) (by simp [hp]) with ⟨b, rest, hi, hr⟩ | ⟨t, hr, hm⟩
  · rw [hr]
    exact takeHeaderByte_moves hp hi
  · rw [hr]
    exact hm

/-! ### The chunks and the end marker of a DECODE -/

theorem emitPixel_moves {s u : State} (hp : s.phase = .decChunks) (h : Advanced s u) : BlockMove s (emitPixel u) := by
  rcases emitPixel_cases u with ⟨-, he⟩ | ⟨rest, -, he⟩ | ⟨rest, -, he⟩
  · rw [he]
    exact .offers u.pixelSink hp h
  · rw [he]
    exact .offers rest hp h
  · rw [he]
    exact .delivers rest hp h

theorem execScratch_moves {s u : State} (hp : s.phase = .decChunks) (h : Fetched s u)
    (hc : chunkComplete u.scratch = true) : ∃ t, execScratch u = .next t ∧ BlockMove s t := by
  obtain ⟨i, rest, hd⟩ := decode_of_chunkComplete hc
  have hrun : ∀ n, i = .run n → n ≤ 62 := fun n hi => decode_run_le (hi ▸ hd)
  obtain ⟨v, hv, hadv⟩ := exec_advanced h hrun
  exact ⟨emitPixel v, by simp only [execScratch, hd, hv, thenEmit], emitPixel_moves hp hadv⟩

theorem Fetched.failFrame {s u : State} (h : Fetched s u) (ho : s.offer = false) : FailFrame s u where
  op := by rw [h.frame]
  k := by rw [h.frame]
  npix := by rw [h.frame]
  prev := by rw [h.frame]
  cache := by rw [h.frame]
  emitted := by rw [h.frame]
  offer := by rw [h.frame]
  idleSink := fun _ => ho
  run := .inl (by rw [h.frame])
  takes := h.takes
  sends := Sends.none (by rw [h.frame]) (by rw [h.frame]) (by rw [h.frame])

theorem decChunksStep_moves {s : State} (hp : s.phase = .decChunks) :
    ∃ t, decChunksStep s = .next t ∧ BlockMove s t := by
  have hbusy : s.phase.busy = true := busy_of_phase hp rfl
  unfold decChunksStep
  split
  · next ho =>
    exact ⟨_, rfl, emitPixel_moves hp ⟨by rw [← ho], Takes.none rfl rfl, id, .inl rfl⟩⟩
  · next ho =>
    rw [Bool.not_eq_true] at ho
    split
    · next hr => exact ⟨_, rfl, emitPixel_moves hp (runContinue_advanced hr)⟩
    · obtain ⟨u, hu, h⟩ := fetchChunk_cases s
      have hio : u.ioErr = s.ioErr := by rw [hu.frame]
      rcases h with ⟨hc, hf⟩ | hf | hf | ⟨e, hf⟩
      · rw [hf]
        exact execScratch_moves hp hu hc
      · rw [hf]
        exact ⟨u, rfl, .fetching hp ho hu⟩
      · rw [hf]
        exact ⟨_, rfl, .fails hbusy ((hu.failFrame ho).raise hio (by decide) _ _)⟩
      · rw [hf]
        exact ⟨_, rfl, .fails hbusy ((hu.failFrame ho).raiseIo e _)⟩

theorem decEndStep_moves {s : State} (hp : s.phase = .decEnd) : BlockMove s (decEndStep s) := by
  have hbusy : s.phase.busy = true := busy_of_phase hp rfl
  unfold decEndStep
  rcases readByte_moves hbusy (by simp [hp]) with ⟨b, rest, hi, hr⟩ | ⟨t, hr, hm⟩
  · simp only [hr]
    split
    · exact .markRead hp hi
    · have hf : FailFrame s { s with input := rest, pos := s.pos + 1 } :=
        ⟨rfl, rfl, rfl, rfl, rfl, rfl, rfl, by simp [hp], .inl rfl, Takes.byte hi rfl, Sends.none rfl rfl rfl⟩
      exact .fails hbusy (hf.raise rfl (by decide) _ _)
  · rw [hr]
    exact hm

/-! ### An ENCODE -/

theorem encHeaderStep_moves {s : State} (hp : s.phase = .encHeader) : BlockMove s (encHeaderStep s) := by
  unfold encHeaderStep
  generalize (headerBytes s.width s.height s.channels s.colorspace).getD s.opos 0 = b
  rcases writeByte_moves b (busy_of_phase hp rfl) (by simp [hp]) with ⟨rest, hs, hw⟩ | ⟨t, hw, hm⟩
  · rw [hw, Xfer.andThen, headerByteWritten]
    split
    · next hmore => exact .headerSent b hp hs hmore
    · exact .encodingBegun b hp hs
  · rw [hw]
    exact hm

theorem encEndStep_moves {s : State} (hp : s.phase = .encEnd) : BlockMove s (encEndStep s) := by
  unfold encEndStep
  rcases writeByte_moves (endMarker.getD s.markAt 0) (busy_of_phase hp rfl) (by simp [hp]) with
    ⟨rest, hs, hw⟩ | ⟨t, hw, hm⟩
  · rw [hw]
    exact .markSent _ hp hs
  · rw [hw]
    exact hm

/-- The bytes in the scratch are written and the step goes on, or the sink makes the pixel wait or refuses a byte. -/
theorem writeScratch_moves {s u : State} {p : Pixel} (hp : s.phase = .encChunks) (h : InFlight s u)
    (hcur : u.cur = some p) :
    (∃ v, writeScratch u.scratch u = .ok v ∧ InFlight s v ∧ v.run = u.run ∧ v.cur = some p) ∨
    ∃ t, writeScratch u.scratch u = .stop t ∧ BlockMove s t := by
  rcases writeScratch_cases u.scratch u rfl with ⟨sink, hs, hw⟩ | ⟨j, hj, ⟨hs, hw⟩ | ⟨sink, hs, hw⟩ | ⟨e, sink, hs, hw⟩⟩
  · exact .inl ⟨_, hw, h.sent (gap := []) rfl hs [], rfl, hcur⟩
  all_goals
    have hlen : (u.scratch.take j).length = j := by rw [List.length_take, Nat.min_eq_left (Nat.le_of_lt hj)]
    rw [← hlen] at hs
  · exact .inr ⟨_, hw, .stalls p hp (h.sent (gap := []) (sink := []) rfl (by simpa using hs) _) hcur⟩
  · exact .inr ⟨_, hw, .stalls p hp (h.sent (gap := [.wait]) rfl hs _) hcur⟩
  · have hsent := h.sent (gap := [.ioErr e]) rfl hs (u.scratch.drop j)
    exact .inr ⟨_, hw, .fails (busy_of_phase hp rfl) ((hsent.failFrame hp).raiseIo e _)⟩

theorem emitRun_moves {s u : State} {p : Pixel} (hp : s.phase = .encChunks) (h : InFlight s u) (hcur : u.cur = some p)
    {f : State → State} (hf : ∀ v, InFlight s v → v.run = 0 → v.cur = some p → BlockMove s (f v)) :
    BlockMove s ((emitRun u).andThen f) := by
  unfold emitRun
  rcases writeScratch_moves hp h hcur with ⟨v, hw, hv, -, hc⟩ | ⟨t, hw, hm⟩
  · rw [hw]
    exact hf _ hv.clearRun rfl hc
  · rw [hw]
    exact hm

theorem continueChunk_moves {s u : State} {p : Pixel} (hp : s.phase = .encChunks) (h : InFlight s u) (hrun : u.run = 0)
    (hcur : u.cur = some p) : BlockMove s (continueChunk p u) := by
  unfold continueChunk
  rcases writeScratch_moves hp h hcur with ⟨v, hw, hv, hr, -⟩ | ⟨t, hw, hm⟩
  · rw [hw]
    exact .encodes p hp hv (hr.trans hrun)
  · rw [hw]
    exact hm

theorem beginChunk_moves {s u : State} {p : Pixel} (hp : s.phase = .encChunks) (h : InFlight s u) (hrun : u.run = 0)
    (hcur : u.cur = some p) : BlockMove s (beginChunk p u) := continueChunk_moves hp (h.load _) hrun hcur

theorem resumePixel_moves {s u : State} {p : Pixel} (hp : s.phase = .encChunks) (h : InFlight s u)
    (hcur : u.cur = some p) : BlockMove s (resumePixel p u) := by
  unfold resumePixel
  split
  · exact emitRun_moves hp h hcur fun v hv hr _ => .flushes hp hv hr
  · split
    · exact emitRun_moves hp h hcur fun v hv hr hc => beginChunk_moves hp hv hr hc
    · next hrun => exact continueChunk_moves hp h (not_not.mp hrun) hcur

theorem takePixel_moves {s : State} (p : Pixel) (source : List SourceOffer) (hp : s.phase = .encChunks)
    (hcur : s.cur = none) : BlockMove s (takePixel p { s with pixelSource := source }) := by
  have htaken : InFlight s { s with pixelSource := source, cur := some p } := ⟨rfl, .inl rfl, Sends.none rfl rfl rfl⟩
  have hcounted : InFlight s { s with pixelSource := source, cur := some p, run := s.run + 1 } :=
    ⟨rfl, .inr (.inr ⟨hcur, rfl⟩), Sends.none rfl rfl rfl⟩
  unfold takePixel
  dsimp only
  split_ifs with heq hflush hrun
  · exact resumePixel_moves hp (hcounted.load _) rfl
  · rw [not_or] at hflush
    exact .counts hp hcounted hcur rfl hflush.1 hflush.2
  · exact resumePixel_moves hp (htaken.load _) rfl
  · exact beginChunk_moves hp htaken (not_not.mp hrun) rfl

theorem encChunksStep_moves {s : State} (hp : s.phase = .encChunks) : BlockMove s (encChunksStep s) := by
  unfold encChunksStep
  rcases hcur : s.cur with _ | p
  · simp only [nextPixel]
    rcases s.pixelSource with _ | ⟨p | _, rest⟩
    · exact .waits s.input s.pixelSource s.byteSink (Takes.none rfl rfl) (Sends.none rfl rfl rfl)
    · exact takePixel_moves p rest hp hcur
    · exact .waits s.input rest s.byteSink (Takes.none rfl rfl) (Sends.none rfl rfl rfl)
  · exact resumePixel_moves hp (InFlight.refl s) hcur

/-- Every step of the block is one of its moves. -/
theorem blockStep_moves (s : State) : ∃ t, blockStep s = .next t ∧ BlockMove s t := by
  unfold blockStep
  split
  case h_1 hp | h_8 hp | h_9 hp => exact ⟨s, rfl, .quiet (by rw [hp]; rfl)⟩
  case h_2 hp => exact ⟨_, rfl, decHeaderStep_moves hp⟩
  case h_3 hp => exact decChunksStep_moves hp
  case h_4 hp => exact ⟨_, rfl, decEndStep_moves hp⟩
  case h_5 hp => exact ⟨_, rfl, encHeaderStep_moves hp⟩
  case h_6 hp => exact ⟨_, rfl, encChunksStep_moves hp⟩
  case h_7 hp => exact ⟨_, rfl, encEndStep_moves hp⟩

/-- A step of the block, as the move it is. -/
theorem blockMove_of_blockStep {s t : State} (h : blockStep s = .next t) : BlockMove s t := by
  obtain ⟨u, hu, hm⟩ := blockStep_moves s
  rw [hu] at h
  cases h
  exact hm

end Sys2Proof.Machine
end

section
/-! PROOFS. The streams move in order, from the moves of the block (R14, R15, R17). -/

namespace Sys2Proof.Machine

open Sys2Proof.Statements

/-- Every move takes input answers from the front. -/
theorem BlockMove.takes {s t : State} (h : BlockMove s t) : Takes s t := by
  cases h with
  | waits _ _ _ takes _ => exact takes
  | fails _ h => exact h.takes
  | headerField _ _ _ _ input | headerChannels _ input | configRead _ input | streamBegun _ input | markRead _ input =>
    exact Takes.byte input rfl
  | fetching _ _ h | offers _ _ h | delivers _ _ h => exact h.takes
  | quiet | headerSent | encodingBegun | markSent => exact Takes.none rfl rfl
  | stalls _ _ h => exact Takes.none (by rw [h.frame]) (by rw [h.frame])
  | counts _ h | flushes _ h | encodes _ _ h => exact Takes.none (by rw [h.frame]; rfl) (by rw [h.frame]; rfl)

/-- Every move takes the byte sink's answers from the front. -/
theorem BlockMove.sends {s t : State} (h : BlockMove s t) : Sends s t := by
  cases h with
  | waits _ _ _ _ sends => exact sends
  | fails _ h => exact h.sends
  | quiet | headerField | headerChannels | configRead | streamBegun | markRead => exact Sends.none rfl rfl rfl
  | fetching _ _ h | offers _ _ h => exact Sends.none (by rw [h.frame]) (by rw [h.frame]) (by rw [h.frame])
  | delivers _ _ h => exact Sends.none (by rw [h.frame]; rfl) (by rw [h.frame]; rfl) (by rw [h.frame]; rfl)
  | headerSent _ _ sink | encodingBegun _ _ sink | markSent _ _ sink => exact Sends.byte sink rfl rfl
  | stalls _ _ h | counts _ h | flushes _ h | encodes _ _ h => exact h.sends

/-- At most one pixel moves: no pixel, `prev` to the sink of a DECODE, or one pixel of an ENCODE (R15, R44). -/
def PixelMove (s t : State) : Prop :=
  (t.k = s.k ∧ t.emitted = s.emitted) ∨
  (t.k = s.k + 1 ∧ s.phase = .decChunks ∧ t.emitted = s.emitted ++ [t.prev]) ∨
  (t.k = s.k + 1 ∧ s.phase = .encChunks ∧ t.emitted = s.emitted)

/-- A pixel of the encoder is finished. -/
theorem pixelMove_pixelEncoded {s u : State} (hp : s.phase = .encChunks) (hk : u.k = s.k)
    (he : u.emitted = s.emitted) : PixelMove s (pixelEncoded u) := .inr (.inr ⟨by simp [hk], hp, he⟩)

theorem BlockMove.pixel {s t : State} (h : BlockMove s t) : PixelMove s t := by
  cases h with
  | fails _ h => exact .inl ⟨h.k, h.emitted⟩
  | fetching _ _ h => exact .inl ⟨by rw [h.frame], by rw [h.frame]⟩
  | offers _ _ h => exact .inl ⟨by rw [h.frame], by rw [h.frame]⟩
  | delivers _ phase h => exact .inr (.inl ⟨by rw [h.frame]; rfl, phase, by rw [h.frame]; rfl⟩)
  | stalls _ _ h => exact .inl ⟨by rw [h.frame], by rw [h.frame]⟩
  | counts phase h => exact pixelMove_pixelEncoded phase (by rw [h.frame]) (by rw [h.frame])
  | flushes phase h => exact pixelMove_pixelEncoded phase (by rw [h.frame]) (by rw [h.frame])
  | encodes _ phase h => exact pixelMove_pixelEncoded phase (by rw [h.frame]; rfl) (by rw [h.frame]; rfl)
  | _ => exact .inl ⟨rfl, rfl⟩

/-- With a silent host, a step is a move of the block. -/
theorem blockMove_of_step {s t : State} (hh : s.host = []) (h : step s = .next t) : BlockMove s t :=
  blockMove_of_blockStep (step_silent hh ▸ h)

/-- Settles O45: each move of the block takes its input from the front. -/
theorem posCountsTheBytesConsumed : Obligations.PosCountsTheBytesConsumed :=
  fun _ _ hh hs => (blockMove_of_step hh hs).takes

/-- Settles O46: each move of the block writes in order and moves at most one pixel. -/
theorem outputAdvancesInOrder : Obligations.OutputAdvancesInOrder :=
  fun _ _ hh hs => ⟨(blockMove_of_step hh hs).sends, (blockMove_of_step hh hs).pixel⟩

end Sys2Proof.Machine
end

section
/-! PROOFS. Every move of the host, and what it takes for a step to keep an invariant. -/

namespace Sys2Proof.Machine

/-- Every move of the host (R29, R30, R137, R149): the state after one action. -/
inductive HostMove (s : State) : State → Prop
  /-- A read, a connection, or a write without effect (R28, R149). -/
  | connects (input : List InAnswer) (pixelSink : List SinkAnswer) (source : List SourceOffer)
      (byteSink : List OutAnswer) (seen : List (Nat × Word64)) :
      HostMove s { s with
        input := input, pixelSink := pixelSink, pixelSource := source, byteSink := byteSink, hostSeen := seen }
  /-- An option register is written (R29). -/
  | options (phase : s.phase.busy = false) (w h : Word64) (c f : Byte) :
      HostMove s { s with width := w, height := h, channels := c, colorspace := f }
  /-- DECODE or DECODE_CONFIG starts (R30). -/
  | startsDecode (o : Op) (op : o = .decode ∨ o = .decodeConfig) : HostMove s (startDecode o s)
  /-- ENCODE starts with good options (R106). -/
  | startsEncode (width : 0 < s.width.toNat ∧ s.width.toNat < 2 ^ 32)
      (height : 0 < s.height.toNat ∧ s.height.toNat < 2 ^ 32)
      (channels : legalChannels s.channels = true) (colorspace : legalColorspace s.colorspace = true) :
      HostMove s { clearForStart .encode s with npix := s.width.toNat * s.height.toNat, phase := .encHeader }
  /-- ENCODE ends at once, with an error in its options (R106). -/
  | optionError (code : ErrCode) (info : Word64) (error : code ≠ .none ∧ code ≠ .badTag ∧ code ≠ .ioError) :
      HostMove s (raise code 0 info (clearForStart .encode s))
  /-- Hardware reset (R146). -/
  | resets : HostMove s (hardReset s)

/-- An action that changes nothing is a move. -/
theorem HostMove.refl (s : State) : HostMove s s := .connects s.input s.pixelSink s.pixelSource s.byteSink s.hostSeen

/-- A dimension that is positive as a signed number and below `2^32` is that number (R106). -/
theorem legalDimension_bounds {w : Word64} (h : legalDimension w = true) : 0 < w.toNat ∧ w.toNat < 2 ^ 32 := by
  simp only [legalDimension, Bool.and_eq_true, decide_eq_true_eq] at h
  rw [BitVec.toInt_eq_toNat_cond] at h
  have := w.isLt
  split at h <;> omega

theorem encodeGeometryMask_eq_zero {w h : Word64} (hm : encodeGeometryMask w h = 0) :
    legalDimension w = true ∧ legalDimension h = true := by
  unfold encodeGeometryMask at hm
  cases hw : legalDimension w <;> cases hh : legalDimension h <;> simp [hw, hh] at hm ⊢

theorem startEncode_moves (s : State) : HostMove s (startEncode s) := by
  unfold startEncode checkOptions
  split
  · exact .optionError .badGeometry _ (by decide)
  · next hm =>
    split
    · exact .optionError .badChannels _ (by decide)
    · next hc =>
      split
      · exact .optionError .badColorspace _ (by decide)
      · next hf =>
        obtain ⟨hw, hh⟩ := encodeGeometryMask_eq_zero (not_not.mp hm)
        rw [Bool.not_eq_false] at hc hf
        exact .startsEncode (legalDimension_bounds hw) (legalDimension_bounds hh) hc hf

theorem startOp_moves (o : Op) (s : State) : HostMove s (startOp o s) := by
  cases o with
  | none => exact .refl s
  | decode => exact .startsDecode .decode (.inl rfl)
  | decodeConfig => exact .startsDecode .decodeConfig (.inr rfl)
  | encode => exact startEncode_moves s

theorem writeReg_moves (n : Nat) (v : Word64) (s : State) : HostMove s (writeReg n v s) := by
  unfold writeReg
  split
  · exact .refl s
  · next hbusy =>
    have hquiet : s.phase.busy = false := Bool.eq_false_iff.mpr hbusy
    split
    · exact startOp_moves _ s
    · exact .options hquiet v s.height s.channels s.colorspace
    · exact .options hquiet s.width v s.channels s.colorspace
    · exact .options hquiet s.width s.height _ _
    · exact .refl s

/-- Every action of the host is one of its moves. -/
theorem hostAct_moves (a : HostAction) (s : State) : HostMove s (hostAct a s) := by
  cases a with
  | write n v => exact writeReg_moves n v s
  | reset => exact .resets
  | read n => exact .connects s.input s.pixelSink s.pixelSource s.byteSink _
  | connectInput answers => exact .connects answers s.pixelSink s.pixelSource s.byteSink s.hostSeen
  | connectPixelSink answers => exact .connects s.input answers s.pixelSource s.byteSink s.hostSeen
  | connectPixelSource offers => exact .connects s.input s.pixelSink offers s.byteSink s.hostSeen
  | connectByteSink answers => exact .connects s.input s.pixelSink s.pixelSource answers s.hostSeen
  | pass => exact .refl s

/-- A step is a move of the block or of the host, once the host's script has moved on (R144). -/
theorem step_moves {s t : State} (h : step s = .next t) :
    ∃ rest, BlockMove { s with host := rest } t ∨ HostMove { s with host := rest } t := by
  unfold step machineStep at h
  split at h
  · exact ⟨s.host, .inl (blockMove_of_blockStep h)⟩
  · exact ⟨_, .inl (blockMove_of_blockStep h)⟩
  · cases h
    exact ⟨_, .inr (hostAct_moves _ _)⟩

/-- What every move of the block and of the host establishes, every step establishes. -/
theorem step_establishes {P Q : State → Prop} (hhost : ∀ s rest, P s → P { s with host := rest })
    (hblock : ∀ s t, P s → BlockMove s t → Q t) (hact : ∀ s t, P s → HostMove s t → Q t) {s t : State} (hs : P s)
    (h : step s = .next t) : Q t := by
  obtain ⟨rest, hm | hm⟩ := step_moves h
  · exact hblock _ _ (hhost s rest hs) hm
  · exact hact _ _ (hhost s rest hs) hm

/-! ### The error record -/

/-- The error record is as before. -/
def SameRecord (s t : State) : Prop :=
  t.errCode = s.errCode ∧ t.errOffset = s.errOffset ∧ t.errInfo = s.errInfo ∧ t.ioErr = s.ioErr

theorem SameRecord.refl (s : State) : SameRecord s s := ⟨rfl, rfl, rfl, rfl⟩

theorem ErrorInv.congr {s t : State} (h : ErrorInv s) (hr : SameRecord s t)
    (hp : t.phase = .error ↔ s.phase = .error) : ErrorInv t := by
  obtain ⟨hcode, hoffset, hinfo, hio⟩ := hr
  refine ⟨?_, ?_, ?_, ?_⟩
  · rw [Ne, hp, hcode, hoffset, hinfo, hio]
    exact h.clean
  · rw [hp, hcode]
    exact h.recorded
  · rw [hcode, hio]
    exact h.transport
  · rw [hio, hinfo]
    exact h.ioInfo

/-- While no error has occurred the record is all 0, which is consistent (R23). -/
theorem errorInv_of_clean {s : State} (hp : s.phase ≠ .error)
    (hc : s.errCode = .none ∧ s.errOffset = 0 ∧ s.errInfo = 0 ∧ s.ioErr = none) : ErrorInv s where
  clean _ := hc
  recorded h := absurd h hp
  transport := by simp [hc.1, hc.2.2.2]
  ioInfo e he := by simp [hc.2.2.2] at he

/-- An error without a transport value is consistent (R128). -/
theorem errorInv_of_plain {s : State} (hp : s.phase = .error)
    (hcode : s.errCode ≠ .none ∧ s.errCode ≠ .badTag ∧ s.errCode ≠ .ioError) (hio : s.ioErr = none) : ErrorInv s where
  clean h := absurd hp h
  recorded _ := ⟨hcode.1, hcode.2.1⟩
  transport := by simp [hcode.2.2, hio]
  ioInfo e he := by simp [hio] at he

/-- An error of the transport is consistent when its value is kept (R127). -/
theorem errorInv_of_transport {s : State} {e : Config.IoErrT} (hp : s.phase = .error) (hcode : s.errCode = .ioError)
    (hio : s.ioErr = some e) (hinfo : s.errInfo = Config.ioerrCode e) : ErrorInv s where
  clean h := absurd hp h
  recorded _ := by simp [hcode]
  transport := by simp [hcode, hio]
  ioInfo e' he := by
    rw [hio] at he
    cases he
    exact hinfo

/-- A move that is no error leaves the record alone. -/
theorem BlockMove.record {s t : State} (h : BlockMove s t) :
    (SameRecord s t ∧ (t.phase = .error ↔ s.phase = .error)) ∨ (s.phase.busy = true ∧ Failed s t) := by
  cases h with
  | fails phase h => exact .inr ⟨phase, h⟩
  | quiet | waits | headerField | headerChannels | headerSent => exact .inl ⟨.refl s, .rfl⟩
  | configRead phase | streamBegun phase | encodingBegun _ phase => exact .inl ⟨.refl s, by simp [phase]⟩
  | markRead phase | markSent _ phase =>
    refine .inl ⟨.refl s, ?_⟩
    rw [markDone_phase]
    split <;> simp [phase]
  | fetching _ _ h | offers _ _ h | stalls _ _ h =>
    rw [h.frame]
    exact .inl ⟨.refl s, .rfl⟩
  | delivers _ phase h =>
    rw [h.frame]
    refine .inl ⟨.refl s, ?_⟩
    rw [pixelAccepted_phase]
    split <;> simp [phase]
  | counts phase h | flushes phase h | encodes _ phase h =>
    rw [h.frame]
    refine .inl ⟨.refl s, ?_⟩
    rw [pixelEncoded_phase]
    split <;> simp [phase]

theorem errorInv_block {s t : State} (h : ErrorInv s) (hm : BlockMove s t) : ErrorInv t := by
  rcases hm.record with ⟨hr, hp⟩ | ⟨hbusy, hf⟩
  · exact h.congr hr hp
  · have hne : s.phase ≠ .error := fun heq => by simp [heq, Phase.busy] at hbusy
    obtain ⟨-, -, -, hio⟩ := h.clean hne
    rcases hf.record with ⟨hn, ht, hi, hsame⟩ | ⟨e, hcode, hval, hinfo⟩
    · exact errorInv_of_plain hf.phase ⟨hn, ht, hi⟩ (hsame.trans hio)
    · exact errorInv_of_transport hf.phase hcode hval hinfo

theorem errorInv_host {s t : State} (h : ErrorInv s) (hm : HostMove s t) : ErrorInv t := by
  cases hm with
  | connects | options => exact h.congr (.refl s) .rfl
  | startsDecode | startsEncode => exact errorInv_of_clean (by simp) ⟨rfl, rfl, rfl, rfl⟩
  | optionError code info herr => exact errorInv_of_plain rfl herr rfl
  | resets => exact errorInv_of_clean (by simp [State.reset]) ⟨rfl, rfl, rfl, rfl⟩

/-- Settles O51: a move leaves the record alone, clears it at a start, or writes it from a clean one. -/
theorem errorRecordStaysConsistent : Obligations.ErrorRecordStaysConsistent := fun _ _ =>
  step_establishes (fun s _ h => h.congr (.refl s) .rfl) (fun _ _ => errorInv_block) (fun _ _ => errorInv_host)

end Sys2Proof.Machine
end

section
/-! PROOFS. OP, PHASE, the counters and the validated header, phase by phase (R21, R22, R15, R16, R81 to R84). -/

namespace Sys2Proof.Machine

/-! ### OP, PHASE and the control fields -/

/-- What `ControlInv` says in each phase. -/
def ControlAt (s : State) : Phase → Prop
  | .idle => s.op = .none ∧ s.offer = false ∧ s.cur = none
  | .decHeader => (s.op = .decode ∨ s.op = .decodeConfig) ∧ s.offer = false ∧ s.cur = none ∧ s.markAt = 0
  | .decChunks => s.op = .decode ∧ s.cur = none ∧ s.markAt = 0
  | .decEnd => s.op = .decode ∧ s.offer = false ∧ s.cur = none ∧ s.markAt < 8
  | .encHeader => s.op = .encode ∧ s.offer = false ∧ s.cur = none ∧ s.markAt = 0
  | .encChunks => s.op = .encode ∧ s.offer = false ∧ s.markAt = 0
  | .encEnd => s.op = .encode ∧ s.offer = false ∧ s.cur = none ∧ s.markAt < 8
  | .done => s.op ≠ .none ∧ s.offer = false ∧ s.cur = none
  | .error => s.op ≠ .none ∧ s.offer = false

theorem controlInv_of_at {s : State} {p : Phase} (hp : s.phase = p) (h : ControlAt s p) : ControlInv s := by
  cases p <;> simp only [ControlAt] at h <;> constructor <;> simp [hp, h]
  case decHeader => rcases h.1 with h | h <;> simp [h]

theorem ControlInv.at {s : State} {p : Phase} (h : ControlInv s) (hp : s.phase = p) : ControlAt s p := by
  obtain ⟨idle, header, decoding, encoding, offered, taken, unmarked, mark⟩ := h
  cases p <;> simp_all [ControlAt]

theorem ControlInv.congr {s t : State} (h : ControlInv s) (hp : t.phase = s.phase) (ho : t.op = s.op)
    (hf : t.offer = s.offer) (hc : t.cur = s.cur) (hm : t.markAt = s.markAt) : ControlInv t where
  idle := by rw [hp, ho]; exact h.idle
  header := by rw [hp, ho]; exact h.header
  decoding := by rw [hp, ho]; exact h.decoding
  encoding := by rw [hp, ho]; exact h.encoding
  offered := by rw [hp, hf]; exact h.offered
  taken := by rw [hp, hc]; exact h.taken
  unmarked := by rw [hp, hm]; exact h.unmarked
  mark := by rw [hp, hm]; exact h.mark

/-- Once an operation is on, OP names it and no pixel waits outside the chunk phase. -/
theorem ControlInv.busy {s : State} (h : ControlInv s) (hb : s.phase.busy = true) :
    s.op ≠ .none ∧ (s.phase ≠ .decChunks → s.offer = false) := by
  refine ⟨fun ho => ?_, fun hp => ?_⟩
  · simp [h.idle.2 ho, Phase.busy] at hb
  · exact Bool.eq_false_iff.mpr fun hoff => hp (h.offered hoff)

theorem controlInv_failed {s t : State} (h : ControlInv s) (hb : s.phase.busy = true) (hf : Failed s t) :
    ControlInv t := by
  obtain ⟨hop, hoff⟩ := h.busy hb
  refine controlInv_of_at hf.phase ⟨hf.op ▸ hop, hf.offer.trans ?_⟩
  by_cases hp : s.phase = .decChunks
  · exact hf.idleSink hp
  · exact hoff hp

theorem controlInv_pixelAccepted {u : State} (hop : u.op = .decode) (hcur : u.cur = none) (hmark : u.markAt = 0)
    (hp : u.phase = .decChunks) : ControlInv (pixelAccepted u) := by
  have hphase := pixelAccepted_phase u
  split at hphase
  · exact controlInv_of_at (hphase.trans hp) ⟨hop, hcur, hmark⟩
  · exact controlInv_of_at hphase ⟨hop, rfl, hcur, by simp [hmark]⟩

theorem controlInv_pixelEncoded {u : State} (h : ControlInv u) (hp : u.phase = .encChunks) :
    ControlInv (pixelEncoded u) := by
  obtain ⟨hop, hoff, hmark⟩ := h.at hp
  have hphase := pixelEncoded_phase u
  split at hphase
  · exact controlInv_of_at (hphase.trans hp) ⟨hop, hoff, hmark⟩
  · exact controlInv_of_at hphase ⟨hop, hoff, rfl, by simp [hmark]⟩

theorem controlInv_markDone {u : State} (h : ControlInv u) (hp : u.phase = .decEnd ∨ u.phase = .encEnd) :
    ControlInv (markDone u) := by
  have hphase := markDone_phase u
  rcases hp with hp | hp
  all_goals
    obtain ⟨hop, hoff, hcur, -⟩ := h.at hp
    split at hphase
    · next hmore => exact controlInv_of_at (hphase.trans hp) ⟨hop, hoff, hcur, hmore⟩
    · exact controlInv_of_at hphase ⟨by simp [hop], hoff, hcur⟩

/-- What moves while a pixel is in flight is not the control state, but for the pixel itself. -/
theorem controlInv_inFlight {s u : State} (h : ControlInv s) (hp : s.phase = .encChunks) (hu : InFlight s u) :
    ControlInv u := by
  rw [hu.frame]
  exact controlInv_of_at hp (h.at hp)

theorem controlInv_block {s t : State} (h : ControlInv s) (hm : BlockMove s t) : ControlInv t := by
  cases hm with
  | quiet => exact h
  | waits | headerField | headerChannels | headerSent => exact h.congr rfl rfl rfl rfl rfl
  | fails phase hf => exact controlInv_failed h phase hf
  | configRead phase _ op =>
    obtain ⟨-, hoff, hcur, -⟩ := h.at phase
    exact controlInv_of_at rfl ⟨by simp [op], hoff, hcur⟩
  | streamBegun phase _ _ op =>
    obtain ⟨hop, -, hcur, hmark⟩ := h.at phase
    exact controlInv_of_at rfl ⟨hop.resolve_right op, hcur, hmark⟩
  | fetching _ _ hu =>
    rw [hu.frame]
    exact h.congr rfl rfl rfl rfl rfl
  | offers _ phase hu =>
    rw [hu.frame]
    exact controlInv_of_at phase (h.at phase)
  | delivers _ phase hu =>
    obtain ⟨hop, hcur, hmark⟩ := h.at phase
    rw [hu.frame]
    exact controlInv_pixelAccepted hop hcur hmark phase
  | markRead phase => exact controlInv_markDone (h.congr rfl rfl rfl rfl rfl) (.inl phase)
  | encodingBegun _ phase =>
    obtain ⟨hop, hoff, -, hmark⟩ := h.at phase
    exact controlInv_of_at rfl ⟨hop, hoff, hmark⟩
  | stalls _ phase hu => exact controlInv_inFlight h phase hu
  | counts phase hu | flushes phase hu =>
    exact controlInv_pixelEncoded (controlInv_inFlight h phase hu) (by rw [hu.frame]; exact phase)
  | encodes _ phase hu =>
    exact controlInv_pixelEncoded ((controlInv_inFlight h phase hu).congr rfl rfl rfl rfl rfl)
      (by rw [hu.frame]; exact phase)
  | markSent _ phase => exact controlInv_markDone (h.congr rfl rfl rfl rfl rfl) (.inr phase)

theorem controlInv_host {s t : State} (h : ControlInv s) (hm : HostMove s t) : ControlInv t := by
  cases hm with
  | connects | options => exact h.congr rfl rfl rfl rfl rfl
  | startsDecode _ op => exact controlInv_of_at rfl ⟨op, rfl, rfl, rfl⟩
  | startsEncode => exact controlInv_of_at rfl ⟨rfl, rfl, rfl, rfl⟩
  | optionError => exact controlInv_of_at rfl ⟨by simp, rfl⟩
  | resets => exact controlInv_of_at rfl ⟨rfl, rfl, rfl⟩

/-! ### The counters and the records of the sinks -/

/-- What `CountInv` says in each phase, beside the bound of `k` and the lengths of the records. -/
def CountAt (s : State) : Phase → Prop
  | .decHeader => s.pos < 14 ∧ s.k = 0
  | .encHeader => s.opos < 14 ∧ s.k = 0 ∧ 0 < s.npix
  | .decChunks | .encChunks => s.k < s.npix
  | .decEnd | .encEnd => s.k = s.npix
  | .done => s.op = .decode ∨ s.op = .encode → s.k = s.npix
  | .idle | .error => True

/-- The records of the sinks are as long as the counters say. -/
def RecordsCounted (s : State) : Prop :=
  (s.op = .decode → s.emitted.length = s.k) ∧ (s.op = .encode → s.written.length = s.opos)

theorem countInv_of_at {s : State} {p : Phase} (hp : s.phase = p) (hk : s.k ≤ s.npix) (hr : RecordsCounted s)
    (h : CountAt s p) : CountInv s where
  bounded := hk
  emitted := hr.1
  written := hr.2
  decHeader hq := by
    cases hp.symm.trans hq
    exact h
  encHeader hq := by
    cases hp.symm.trans hq
    exact h
  chunks hq := by rcases hq with hq | hq <;> cases hp.symm.trans hq <;> exact h
  ended hq := by rcases hq with hq | hq <;> cases hp.symm.trans hq <;> exact h
  complete hq := by
    cases hp.symm.trans hq
    exact h

theorem CountInv.at {s : State} {p : Phase} (h : CountInv s) (hp : s.phase = p) : CountAt s p := by
  cases p with
  | idle | error => trivial
  | decHeader => exact h.decHeader hp
  | encHeader => exact h.encHeader hp
  | decChunks => exact h.chunks (.inl hp)
  | encChunks => exact h.chunks (.inr hp)
  | decEnd => exact h.ended (.inl hp)
  | encEnd => exact h.ended (.inr hp)
  | done => exact h.complete hp

theorem CountInv.records {s : State} (h : CountInv s) : RecordsCounted s := ⟨h.emitted, h.written⟩

/-- Writing in order keeps the record as long as `opos`. -/
theorem RecordsCounted.sends {s t : State} (h : RecordsCounted s) (hs : Sends s t) (hop : t.op = s.op) (hk : t.k = s.k)
    (he : t.emitted = s.emitted) : RecordsCounted t := by
  obtain ⟨_, bytes, -, -, ho, hw⟩ := hs
  refine ⟨fun hd => ?_, fun he => ?_⟩
  · rw [he, hk]
    exact h.1 (hop ▸ hd)
  · rw [hw, ho, List.length_append, h.2 (hop ▸ he)]

theorem CountInv.congr {s t : State} (h : CountInv s) (hp : t.phase = s.phase) (hop : t.op = s.op) (hk : t.k = s.k)
    (hn : t.npix = s.npix) (hpos : t.pos = s.pos) (hopos : t.opos = s.opos) (he : t.emitted = s.emitted)
    (hw : t.written = s.written) : CountInv t where
  bounded := by rw [hk, hn]; exact h.bounded
  decHeader := by rw [hp, hpos, hk]; exact h.decHeader
  encHeader := by rw [hp, hopos, hk, hn]; exact h.encHeader
  chunks := by rw [hp, hk, hn]; exact h.chunks
  ended := by rw [hp, hk, hn]; exact h.ended
  complete := by rw [hp, hop, hk, hn]; exact h.complete
  emitted := by rw [hop, he, hk]; exact h.emitted
  written := by rw [hop, hw, hopos]; exact h.written

theorem countInv_failed {s t : State} (h : CountInv s) (hf : Failed s t) : CountInv t :=
  countInv_of_at hf.phase (by rw [hf.k, hf.npix]; exact h.bounded)
    (h.records.sends hf.sends hf.op hf.k hf.emitted) trivial

/-- A pixel accepted by the sink is counted and recorded (R15). -/
theorem countInv_pixelAccepted {u : State} (h : CountInv u) (hp : u.phase = .decChunks) :
    CountInv (pixelAccepted u) := by
  have hlt : u.k < u.npix := h.at hp
  have hr : RecordsCounted (pixelAccepted u) := ⟨fun hop => by simp [h.emitted hop], h.written⟩
  have hphase := pixelAccepted_phase u
  split at hphase
  · next hmore => exact countInv_of_at (hphase.trans hp) hlt hr hmore
  · next hlast => exact countInv_of_at hphase hlt hr (Nat.le_antisymm hlt (Nat.not_lt.mp hlast))

/-- A pixel taken by an ENCODE is counted; no pixel is emitted (R15). -/
theorem countInv_pixelEncoded {u : State} (h : CountInv u) (hp : u.phase = .encChunks) (hop : u.op = .encode) :
    CountInv (pixelEncoded u) := by
  have hlt : u.k < u.npix := h.at hp
  have hr : RecordsCounted (pixelEncoded u) := ⟨fun hd => by simp [hop] at hd, h.written⟩
  have hphase := pixelEncoded_phase u
  split at hphase
  · next hmore => exact countInv_of_at (hphase.trans hp) hlt hr hmore
  · next hlast => exact countInv_of_at hphase hlt hr (Nat.le_antisymm hlt (Nat.not_lt.mp hlast))

/-- The end marker moves no pixel (R102). -/
theorem countInv_markDone {u : State} (hk : u.k = u.npix) (hr : RecordsCounted u)
    (hp : u.phase = .decEnd ∨ u.phase = .encEnd) : CountInv (markDone u) := by
  have hphase := markDone_phase u
  split at hphase
  · rcases hp with hp | hp <;> exact countInv_of_at (hphase.trans hp) hk.le hr hk
  · exact countInv_of_at hphase hk.le hr fun _ => hk

/-- While a pixel is in flight, bytes are written and no pixel is counted. -/
theorem countInv_inFlight {s u : State} (h : CountInv s) (hp : s.phase = .encChunks) (hu : InFlight s u) :
    CountInv u := by
  have hr : RecordsCounted u :=
    h.records.sends hu.sends (by rw [hu.frame]) (by rw [hu.frame]) (by rw [hu.frame])
  rw [hu.frame] at hr ⊢
  exact countInv_of_at hp h.bounded hr (h.at hp)

/-- In the chunk phase `pos` is not bounded by `CountInv`. -/
theorem countInv_decChunks {s u : State} (h : CountInv s) (hp : s.phase = .decChunks) (hu : u.phase = s.phase)
    (hk : u.k = s.k) (hn : u.npix = s.npix) (hr : RecordsCounted u) : CountInv u := by
  have hlt : u.k < u.npix := by
    rw [hk, hn]
    exact h.at hp
  exact countInv_of_at (hu.trans hp) hlt.le hr hlt

/-- No failing condition: both dimensions are positive and the image is within MAX_PIXELS (R84). -/
theorem decodeGeometryMask_eq_zero {m w h : Nat} (hm : decodeGeometryMask m w h = 0) : 0 < w ∧ 0 < h ∧ w * h ≤ m := by
  unfold decodeGeometryMask at hm
  split_ifs at hm <;> omega

theorem countInv_block {s t : State} (hc : ControlInv s) (h : CountInv s) (hm : BlockMove s t) : CountInv t := by
  cases hm with
  | quiet => exact h
  | waits => exact h.congr rfl rfl rfl rfl rfl rfl rfl rfl
  | fails _ hf => exact countInv_failed h hf
  | headerField _ _ _ phase _ _ hlast =>
    obtain ⟨hpos, hk⟩ := h.decHeader phase
    exact countInv_of_at phase h.bounded h.records ⟨by dsimp only; omega, hk⟩
  | headerChannels phase _ hpos =>
    obtain ⟨-, hk⟩ := h.decHeader phase
    exact countInv_of_at phase h.bounded h.records ⟨by dsimp only; omega, hk⟩
  | configRead phase _ op =>
    obtain ⟨-, hk⟩ := h.decHeader phase
    exact countInv_of_at rfl (by simp [hk]) h.records fun hop => by simp [op] at hop
  | streamBegun phase _ _ _ _ mask =>
    obtain ⟨-, hk⟩ := h.decHeader phase
    obtain ⟨hw, hh, -⟩ := decodeGeometryMask_eq_zero mask
    have hlt : s.k < s.width.toNat * s.height.toNat := hk ▸ Nat.mul_pos hw hh
    exact countInv_of_at rfl hlt.le h.records hlt
  | fetching phase _ hu =>
    rw [hu.frame]
    exact countInv_decChunks h phase rfl rfl rfl h.records
  | offers _ phase hu =>
    rw [hu.frame]
    exact countInv_decChunks h phase rfl rfl rfl h.records
  | delivers _ phase hu =>
    rw [hu.frame]
    exact countInv_pixelAccepted (countInv_decChunks h phase rfl rfl rfl h.records) phase
  | markRead phase => exact countInv_markDone (h.at phase) h.records (.inl phase)
  | headerSent _ phase hsink hmore =>
    obtain ⟨-, hk, hn⟩ := h.encHeader phase
    exact countInv_of_at phase h.bounded (h.records.sends (Sends.byte hsink rfl rfl) rfl rfl rfl) ⟨hmore, hk, hn⟩
  | encodingBegun _ phase hsink =>
    obtain ⟨-, hk, hn⟩ := h.encHeader phase
    have hlt : s.k < s.npix := by omega
    exact countInv_of_at rfl h.bounded (h.records.sends (Sends.byte hsink rfl rfl) rfl rfl rfl) hlt
  | stalls _ phase hu => exact countInv_inFlight h phase hu
  | counts phase hu | flushes phase hu =>
    obtain ⟨hop, -⟩ := hc.at phase
    exact countInv_pixelEncoded (countInv_inFlight h phase hu) (by rw [hu.frame]; exact phase)
      (by rw [hu.frame]; exact hop)
  | encodes _ phase hu =>
    obtain ⟨hop, -⟩ := hc.at phase
    exact countInv_pixelEncoded ((countInv_inFlight h phase hu).congr rfl rfl rfl rfl rfl rfl rfl rfl)
      (by rw [hu.frame]; exact phase) (by rw [hu.frame]; exact hop)
  | markSent _ phase hsink =>
    exact countInv_markDone (h.at phase) (h.records.sends (Sends.byte hsink rfl rfl) rfl rfl rfl) (.inr phase)

theorem countInv_host {s t : State} (h : CountInv s) (hm : HostMove s t) : CountInv t := by
  cases hm with
  | connects | options => exact h.congr rfl rfl rfl rfl rfl rfl rfl rfl
  | startsDecode o => exact countInv_of_at rfl le_rfl ⟨fun _ => rfl, fun _ => rfl⟩ ⟨by simp, rfl⟩
  | startsEncode hw hh =>
    exact countInv_of_at rfl (Nat.zero_le _) ⟨fun _ => rfl, fun _ => rfl⟩ ⟨by simp, rfl, Nat.mul_pos hw.1 hh.1⟩
  | optionError => exact countInv_of_at rfl le_rfl ⟨fun _ => rfl, fun _ => rfl⟩ trivial
  | resets => exact countInv_of_at rfl le_rfl ⟨fun _ => rfl, fun _ => rfl⟩ trivial

/-! ### The validated header -/

/-- CHANNELS, COLORSPACE and the dimensions are legal, and `npix` is their product (R82, R83, R84, R106). -/
def Validated (s : State) : Prop :=
  (legalChannels s.channels = true ∧ legalColorspace s.colorspace = true) ∧
  s.npix = s.width.toNat * s.height.toNat ∧ 0 < s.width.toNat ∧ s.width.toNat < 2 ^ 32 ∧ 0 < s.height.toNat ∧
    s.height.toNat < 2 ^ 32

/-- What `GeometryInv` says in each phase. -/
def GeometryAt (s : State) : Phase → Prop
  | .decHeader => (s.width.toNat < 2 ^ 32 ∧ s.height.toNat < 2 ^ 32) ∧ (s.pos = 13 → legalChannels s.channels = true)
  | .decChunks | .decEnd => Validated s ∧ s.npix ≤ s.maxPixels
  | .encHeader | .encChunks | .encEnd => Validated s
  | .idle | .done | .error => True

theorem geometryAt_validated {s : State} {p : Phase} (h : GeometryAt s p)
    (hp : p = .decChunks ∨ p = .decEnd ∨ p = .encHeader ∨ p = .encChunks ∨ p = .encEnd) : Validated s := by
  rcases hp with rfl | rfl | rfl | rfl | rfl
  · exact h.1
  · exact h.1
  all_goals exact h

theorem geometryInv_of_at {s : State} {p : Phase} (hp : s.phase = p) (h : GeometryAt s p) : GeometryInv s where
  header hq := by
    cases hp.symm.trans hq
    exact h.1
  channelsRead hq := by
    cases hp.symm.trans hq
    exact h.2
  format hq := (geometryAt_validated h (hp ▸ hq)).1
  size hq := (geometryAt_validated h (hp ▸ hq)).2
  decodeLimit hq := by rcases hq with hq | hq <;> cases hp.symm.trans hq <;> exact h.2

theorem GeometryInv.at {s : State} {p : Phase} (h : GeometryInv s) (hp : s.phase = p) : GeometryAt s p := by
  obtain ⟨header, channelsRead, format, size, decodeLimit⟩ := h
  cases p with
  | idle | done | error => trivial
  | decHeader => exact ⟨header hp, channelsRead hp⟩
  | decChunks | decEnd => exact ⟨⟨format (by simp [hp]), size (by simp [hp])⟩, decodeLimit (by simp [hp])⟩
  | encHeader | encChunks | encEnd => exact ⟨format (by simp [hp]), size (by simp [hp])⟩

theorem GeometryInv.congr {s t : State} (h : GeometryInv s) (hp : t.phase = s.phase) (hpos : t.pos = s.pos)
    (hw : t.width = s.width) (hh : t.height = s.height) (hc : t.channels = s.channels)
    (hf : t.colorspace = s.colorspace) (hn : t.npix = s.npix) (hm : t.maxPixels = s.maxPixels) : GeometryInv t where
  header := by rw [hp, hw, hh]; exact h.header
  channelsRead := by rw [hp, hpos, hc]; exact h.channelsRead
  format := by rw [hp, hc, hf]; exact h.format
  size := by rw [hp, hn, hw, hh]; exact h.size
  decodeLimit := by rw [hp, hn, hm]; exact h.decodeLimit

/-- A quiescent phase asks nothing of the header registers: the host may write them (R29). -/
theorem geometryInv_quiescent {s : State} (hb : s.phase.busy = false) : GeometryInv s := by
  cases hp : s.phase with
  | idle | done | error => exact geometryInv_of_at hp trivial
  | _ => simp [hp, Phase.busy] at hb

theorem geometryInv_pixelAccepted {u : State} (h : GeometryInv u) (hp : u.phase = .decChunks) :
    GeometryInv (pixelAccepted u) := by
  have hphase := pixelAccepted_phase u
  split at hphase
  · exact geometryInv_of_at (hphase.trans hp) (h.at hp)
  · exact geometryInv_of_at hphase (h.at hp)

theorem geometryInv_pixelEncoded {u : State} (h : GeometryInv u) (hp : u.phase = .encChunks) :
    GeometryInv (pixelEncoded u) := by
  have hphase := pixelEncoded_phase u
  split at hphase
  · exact geometryInv_of_at (hphase.trans hp) (h.at hp)
  · exact geometryInv_of_at hphase (h.at hp)

theorem geometryInv_markDone {u : State} {p : Phase} (hp : u.phase = p) (hend : p = .decEnd ∨ p = .encEnd)
    (h : GeometryAt u p) : GeometryInv (markDone u) := by
  have hphase := markDone_phase u
  split at hphase
  · rcases hend with rfl | rfl <;> exact geometryInv_of_at (hphase.trans hp) h
  · exact geometryInv_of_at hphase trivial

theorem geometryInv_inFlight {s u : State} (h : GeometryInv s) (hp : s.phase = .encChunks) (hu : InFlight s u) :
    GeometryInv u := by
  rw [hu.frame]
  exact geometryInv_of_at hp (h.at hp)

theorem geometryInv_block {s t : State} (h : GeometryInv s) (hm : BlockMove s t) : GeometryInv t := by
  cases hm with
  | quiet => exact h
  | waits | headerSent => exact h.congr rfl rfl rfl rfl rfl rfl rfl rfl
  | fails _ hf => exact geometryInv_of_at hf.phase trivial
  | headerField _ w ht phase _ hchannels _ hw hh =>
    obtain ⟨⟨hsw, hsh⟩, -⟩ := h.at phase
    have hwidth : w.toNat < 2 ^ 32 := hw.elim (· ▸ hsw) id
    have hheight : ht.toNat < 2 ^ 32 := hh.elim (· ▸ hsh) id
    exact geometryInv_of_at phase ⟨⟨hwidth, hheight⟩, fun hpos => absurd (Nat.succ.inj hpos) hchannels⟩
  | headerChannels phase _ _ legal =>
    obtain ⟨hsize, -⟩ := h.at phase
    exact geometryInv_of_at phase ⟨hsize, fun _ => legal⟩
  | configRead => exact geometryInv_quiescent rfl
  | streamBegun phase _ hpos _ legal mask =>
    obtain ⟨⟨hsw, hsh⟩, hchannels⟩ := h.at phase
    obtain ⟨hw, hh, hlimit⟩ := decodeGeometryMask_eq_zero mask
    exact geometryInv_of_at rfl ⟨⟨⟨hchannels hpos, legal⟩, rfl, hw, hsw, hh, hsh⟩, hlimit⟩
  | fetching phase _ hu | offers _ phase hu =>
    rw [hu.frame]
    exact geometryInv_of_at phase (h.at phase)
  | delivers _ phase hu =>
    rw [hu.frame]
    exact geometryInv_pixelAccepted (geometryInv_of_at phase (h.at phase)) phase
  | markRead phase => exact geometryInv_markDone phase (.inl rfl) (h.at phase)
  | encodingBegun _ phase => exact geometryInv_of_at rfl (h.at phase)
  | stalls _ phase hu => exact geometryInv_inFlight h phase hu
  | counts phase hu | flushes phase hu =>
    exact geometryInv_pixelEncoded (geometryInv_inFlight h phase hu) (by rw [hu.frame]; exact phase)
  | encodes _ phase hu =>
    exact geometryInv_pixelEncoded ((geometryInv_inFlight h phase hu).congr rfl rfl rfl rfl rfl rfl rfl rfl)
      (by rw [hu.frame]; exact phase)
  | markSent _ phase => exact geometryInv_markDone phase (.inr rfl) (h.at phase)

theorem geometryInv_host {s t : State} (h : GeometryInv s) (hm : HostMove s t) : GeometryInv t := by
  cases hm with
  | connects => exact h.congr rfl rfl rfl rfl rfl rfl rfl rfl
  | options phase => exact geometryInv_quiescent phase
  | startsDecode => exact geometryInv_of_at rfl ⟨⟨by simp, by simp⟩, by simp⟩
  | startsEncode hw hh hc hf => exact geometryInv_of_at rfl ⟨⟨hc, hf⟩, rfl, hw.1, hw.2, hh⟩
  | optionError | resets => exact geometryInv_quiescent rfl

/-- The three invariants that hold together: the counters need OP to fit PHASE. -/
def ControlCountGeometry (s : State) : Prop := ControlInv s ∧ CountInv s ∧ GeometryInv s

theorem controlCountGeometry_host_irrelevant (s : State) (rest : List HostAction) (h : ControlCountGeometry s) :
    ControlCountGeometry { s with host := rest } :=
  ⟨h.1.congr rfl rfl rfl rfl rfl, h.2.1.congr rfl rfl rfl rfl rfl rfl rfl rfl,
    h.2.2.congr rfl rfl rfl rfl rfl rfl rfl rfl⟩

/-- Settles O52: each move of the block and of the host keeps each of the three invariants. -/
theorem phaseAndCountersStayConsistent : Obligations.PhaseAndCountersStayConsistent :=
  fun _ _ hcontrol hcount hgeometry =>
    step_establishes (P := ControlCountGeometry) (Q := ControlCountGeometry) controlCountGeometry_host_irrelevant
      (fun _ _ ⟨hc, hn, hg⟩ hm => ⟨controlInv_block hc hm, countInv_block hc hn hm, geometryInv_block hg hm⟩)
      (fun _ _ ⟨hc, hn, hg⟩ hm => ⟨controlInv_host hc hm, countInv_host hn hm, geometryInv_host hg hm⟩)
      ⟨hcontrol, hcount, hgeometry⟩

end Sys2Proof.Machine
end

section
/-! PROOFS. The run counter stays in its range (R12, R109, R118). -/

namespace Sys2Proof.Machine

/-- What `RunInv` says in each phase, beside the bound 62. -/
def RunAt (s : State) : Phase → Prop
  | .decChunks | .decEnd => s.run.toNat ≤ 61
  | .encChunks => s.cur = none → s.run.toNat ≤ 61
  | .encEnd => s.run = 0
  | .idle | .decHeader | .encHeader | .done | .error => True

theorem runInv_of_at {s : State} {p : Phase} (hp : s.phase = p) (hw : s.run.toNat ≤ 62) (h : RunAt s p) :
    RunInv s where
  width := hw
  decoder hq := by rcases hq with hq | hq <;> cases hp.symm.trans hq <;> exact h
  encoder hq := by
    cases hp.symm.trans hq
    exact h
  flushed hq := by
    cases hp.symm.trans hq
    exact h

theorem RunInv.congr {s t : State} (h : RunInv s) (hp : t.phase = s.phase) (hr : t.run = s.run) (hc : t.cur = s.cur) :
    RunInv t where
  width := by rw [hr]; exact h.width
  decoder := by rw [hp, hr]; exact h.decoder
  encoder := by rw [hp, hr, hc]; exact h.encoder
  flushed := by rw [hp, hr]; exact h.flushed

/-- One more repeat of a run of at most 61 (R108; log 20). -/
theorem toNat_run_succ {r : BitVec 6} (h : r.toNat ≤ 61) : (r + 1).toNat = r.toNat + 1 := by
  bv_omega

/-- A run that is kept, cleared, or counted between two pixels has at most 62 pixels. -/
theorem run_le_of_kept {s : State} {r : BitVec 6} (h : RunInv s)
    (hr : r = s.run ∨ r = 0 ∨ s.phase = .encChunks ∧ s.cur = none ∧ r = s.run + 1) : r.toNat ≤ 62 := by
  rcases hr with rfl | rfl | ⟨hp, hcur, rfl⟩
  · exact h.width
  · decide
  · have hle := h.encoder hp hcur
    rw [toNat_run_succ hle]
    omega

theorem InFlight.run_le {s u : State} (h : RunInv s) (hp : s.phase = .encChunks) (hu : InFlight s u) :
    u.run.toNat ≤ 62 := run_le_of_kept h (hu.run.imp_right (·.imp_right (⟨hp, ·⟩)))

/-- An Advance leaves at most 61 repeats (R92, R98). -/
theorem runInv_advanced {s u : State} (h : RunInv s) (hp : s.phase = .decChunks) (hu : Advanced s u) : RunInv u := by
  have hle : u.run.toNat ≤ 61 := hu.run (h.decoder (.inl hp))
  exact runInv_of_at (p := .decChunks) (by rw [hu.frame]; exact hp) (by omega) hle

theorem runInv_pixelAccepted {u : State} (h : RunInv u) (hp : u.phase = .decChunks) : RunInv (pixelAccepted u) := by
  have hle : u.run.toNat ≤ 61 := h.decoder (.inl hp)
  have hphase := pixelAccepted_phase u
  split at hphase
  · exact runInv_of_at (hphase.trans hp) h.width hle
  · exact runInv_of_at hphase h.width hle

/-- A pixel whose bytes are written leaves no run (R109, R110). -/
theorem runInv_pixelEncoded {u : State} (hp : u.phase = .encChunks) (hr : u.run = 0) : RunInv (pixelEncoded u) := by
  have hphase := pixelEncoded_phase u
  split at hphase
  · exact runInv_of_at (hphase.trans hp) (by simp [hr]) fun _ => by simp [hr]
  · exact runInv_of_at hphase (by simp [hr]) hr

/-- A repeat that neither fills the run nor ends the image leaves the encoder between two pixels (R108). -/
theorem runInv_counted {u : State} (hp : u.phase = .encChunks) (hmore : u.k + 1 < u.npix) (hr : u.run.toNat ≤ 62)
    (hfull : u.run ≠ 62) : RunInv (pixelEncoded u) :=
  runInv_of_at (p := .encChunks) (by rw [pixelEncoded_phase, if_pos hmore, hp]) hr fun _ => by
    rw [pixelEncoded_run]
    bv_omega

theorem runInv_markDone {u : State} (h : RunInv u) : RunInv (markDone u) := by
  have hphase := markDone_phase u
  split at hphase
  · exact h.congr hphase rfl rfl
  · exact runInv_of_at hphase h.width trivial

theorem runInv_block {s t : State} (hcount : CountInv s) (h : RunInv s) (hm : BlockMove s t) : RunInv t := by
  cases hm with
  | quiet => exact h
  | waits | headerField | headerChannels | headerSent => exact h.congr rfl rfl rfl
  | fails _ hf => exact runInv_of_at hf.phase (run_le_of_kept h hf.run) trivial
  | configRead => exact runInv_of_at rfl h.width trivial
  | streamBegun => exact runInv_of_at rfl (by simp) (by simp [RunAt])
  | fetching _ _ hu =>
    rw [hu.frame]
    exact h.congr rfl rfl rfl
  | offers _ phase hu => exact (runInv_advanced h phase hu).congr rfl rfl rfl
  | delivers _ phase hu =>
    exact runInv_pixelAccepted ((runInv_advanced h phase hu).congr rfl rfl rfl) (by rw [hu.frame]; exact phase)
  | markRead => exact runInv_markDone (h.congr rfl rfl rfl)
  | encodingBegun => exact runInv_of_at rfl (by simp) (by simp [RunAt])
  | stalls _ phase hu hcur =>
    exact runInv_of_at (p := .encChunks) (by rw [hu.frame]; exact phase) (hu.run_le h phase) (by simp [RunAt, hcur])
  | counts phase hu _ _ hfull hlast =>
    have hk : s.k < s.npix := hcount.chunks (.inr phase)
    exact runInv_counted (by rw [hu.frame]; exact phase) (by rw [hu.frame]; dsimp only; omega) (hu.run_le h phase) hfull
  | flushes phase hu hrun => exact runInv_pixelEncoded (by rw [hu.frame]; exact phase) hrun
  | encodes _ phase hu hrun => exact runInv_pixelEncoded (by rw [hu.frame]; exact phase) hrun
  | markSent => exact runInv_markDone (h.congr rfl rfl rfl)

theorem runInv_host {s t : State} (h : RunInv s) (hm : HostMove s t) : RunInv t := by
  cases hm with
  | connects | options => exact h.congr rfl rfl rfl
  | startsDecode | startsEncode | optionError => exact runInv_of_at rfl h.width trivial
  | resets => exact runInv_of_at rfl (by simp [State.reset]) trivial

/-- Settles O53: the run grows only between two pixels, where it is at most 61, and every pixel that ends the image
leaves it 0. -/
theorem runCounterStaysInRange : Obligations.RunCounterStaysInRange := fun _ _ hcount hrun =>
  step_establishes (P := fun s => CountInv s ∧ RunInv s)
    (fun _ _ ⟨hn, hr⟩ => ⟨hn.congr rfl rfl rfl rfl rfl rfl rfl rfl, hr.congr rfl rfl rfl⟩)
    (fun _ _ ⟨hn, hr⟩ hm => runInv_block hn hr hm) (fun _ _ ⟨_, hr⟩ hm => runInv_host hr hm) ⟨hcount, hrun⟩

end Sys2Proof.Machine
end

section
/-! PROOFS. The cache hash and the pixel word (R34, R50). -/

namespace Sys2Proof.Machine

/-- The hash byte as a number: the weighted sum wraps once, at the end (R34). -/
theorem hash8_toNat (p : Pixel) :
    (hash8 p).toNat = (p.r.toNat * 3 + p.g.toNat * 5 + p.b.toNat * 7 + p.a.toNat * 11) % 256 := by
  rw [hash8, wrap8, BitVec.toNat_ofInt]
  omega

/-- The slot number is that byte mod 64 (R34). -/
theorem hash6_val (p : Pixel) :
    (hash6 p).val = (p.r.toNat * 3 + p.g.toNat * 5 + p.b.toNat * 7 + p.a.toNat * 11) % 256 % 64 :=
  congrArg (· % 64) (hash8_toNat p)

/-- Settles O7: the value of each of the two hashes. -/
theorem hashIsTheWeightedSumMod256ThenMod64 : Obligations.HashIsTheWeightedSumMod256ThenMod64 := fun p =>
  ⟨hash8_toNat p, hash6_val p⟩

/-- The pixel word is the four channels as the digits of a base-256 number, red first (R50). -/
theorem packPixel_toNat (p : Pixel) :
    (packPixel p).toNat = p.r.toNat * 2 ^ 24 + p.g.toNat * 2 ^ 16 + p.b.toNat * 2 ^ 8 + p.a.toNat := by
  simp only [packPixel, toNat_append_eq_add]
  omega

/-- A channel of a pixel word is one of its base-256 digits (R50). -/
theorem pixelWord_channel_toNat (w : BitVec 32) (lo : Nat) : (w.extractLsb' lo 8).toNat = w.toNat / 2 ^ lo % 256 := by
  rw [BitVec.extractLsb'_toNat, Nat.shiftRight_eq_div_pow]

/-- The channels of a pixel are the digits of its word, so unpacking finds them again. -/
theorem unpackPixel_packPixel (p : Pixel) : unpackPixel (packPixel p) = p := by
  have hr := p.r.isLt
  have hg := p.g.isLt
  have hb := p.b.isLt
  have ha := p.a.isLt
  rw [unpackPixel]
  congr 1
  all_goals
    apply BitVec.eq_of_toNat_eq
    rw [pixelWord_channel_toNat, packPixel_toNat]
    omega

/-- A pixel word is the sum of its digits, so packing them gives it back. -/
theorem packPixel_unpackPixel (w : BitVec 32) : packPixel (unpackPixel w) = w := by
  have hw := w.isLt
  apply BitVec.eq_of_toNat_eq
  simp only [packPixel_toNat, unpackPixel, pixelWord_channel_toNat]
  omega

/-- Settles O8: the value of the word, and the two inverse laws its digits give. -/
theorem pixelWordHoldsRedHighestAlphaLowest : Obligations.PixelWordHoldsRedHighestAlphaLowest :=
  ⟨fun p => ⟨packPixel_toNat p, unpackPixel_packPixel p⟩, packPixel_unpackPixel⟩

end Sys2Proof.Machine
end

section
/-! PROOFS. Every cache slot stays all zero or of its own hash (R37, R11). -/

namespace Sys2Proof.Machine

theorem CacheInv.congr {s t : State} (h : CacheInv s) (hc : t.cache = s.cache) : CacheInv t := by
  intro i
  rw [State.slot, hc]
  exact h i

/-- An Advance leaves the cache as it is, or writes its pixel (R37). -/
theorem cacheInv_advanced {s u : State} (h : CacheInv s) (hu : Advanced s u) : CacheInv u := by
  rcases hu.cache with hkept | hwritten
  · exact h.congr hkept
  · exact (cacheInv_writePixel (p := u.prev) h).congr hwritten

theorem cacheInv_inFlight {s u : State} (h : CacheInv s) (hu : InFlight s u) : CacheInv u :=
  h.congr (by rw [hu.frame])

theorem cacheInv_block {s t : State} (h : CacheInv s) (hm : BlockMove s t) : CacheInv t := by
  cases hm with
  | quiet => exact h
  | waits | headerField | headerChannels | configRead | markRead | headerSent | markSent => exact h.congr rfl
  | fails _ hf => exact h.congr hf.cache
  | streamBegun | encodingBegun => exact (cacheInv_initStream s).congr rfl
  | fetching _ _ hu => exact h.congr (by rw [hu.frame])
  | offers _ _ hu | delivers _ _ hu => exact (cacheInv_advanced h hu).congr rfl
  | stalls _ _ hu | counts _ hu | flushes _ hu => exact (cacheInv_inFlight h hu).congr rfl
  | encodes p _ hu => exact (cacheInv_writePixel (p := p) (cacheInv_inFlight h hu)).congr rfl

/-- No host action writes the cache but a reset, which zeroes it (R31). -/
theorem cacheInv_host {s t : State} (h : CacheInv s) (hm : HostMove s t) : CacheInv t := by
  cases hm with
  | connects | options | startsDecode | startsEncode | optionError => exact h.congr rfl
  | resets => exact cacheInv_reset.congr rfl

/-- Settles O50: a move leaves the cache alone, zeroes it, or writes a pixel to the slot of its hash. -/
theorem cacheSlotsStayConsistent : Obligations.CacheSlotsStayConsistent := fun _ _ =>
  step_establishes (fun _ _ h => h.congr rfl) (fun _ _ => cacheInv_block) (fun _ _ => cacheInv_host)

end Sys2Proof.Machine
end

section
/-! PROOFS. Channels that answer late: a pixel the sink is not ready for, a chunk whose bytes come in two parts (R43,
R41, R159). -/

namespace Sys2Proof.Machine

open Sys2Proof.Statements

/-! ### A sink that is not ready -/

/-- While a pixel is offered, a step does nothing but ask the sink (R43). -/
theorem step_offered {s : State} (hhost : s.host = []) (hphase : s.phase = .decChunks) (hoffer : s.offer = true) :
    step s = .next (emitPixel s) := by
  rw [step_silent hhost]
  simp only [blockStep, hphase, decChunksStep, hoffer, if_true]

/-- Settles O21, by induction on the delays: each one uses up an answer and nothing else. -/
theorem sinkDelaysLoseNoPixel : Obligations.SinkDelaysLoseNoPixel := by
  intro m
  induction m with
  | zero =>
    intro s sink hhost hphase hoffer hsink
    have hemit : emitPixel s = { afterPixel s [] s.input sink s.prev with offer := false } := by
      rw [emitPixel_accept hsink, pixelAccepted, hphase]
      rfl
    rw [← hemit]
    exact run_one (step_offered hhost hphase hoffer)
  | succ m ih =>
    intro s sink hhost hphase hoffer hsink
    have hemit : emitPixel s = { s with pixelSink := List.replicate m .wait ++ .accept :: sink } := by
      rw [List.replicate_succ, List.cons_append] at hsink
      rw [emitPixel, hsink]
    have hstep := step_offered hhost hphase hoffer
    rw [hemit] at hstep
    exact run_step hstep (ih { s with pixelSink := _ } sink hhost hphase hoffer rfl)

/-! ### The length of a chunk -/

/-- Decoding uses up as many bytes as the tag asks for (R63, R72). -/
theorem length_of_decode {t : Byte} {payload rest : List Byte} {i : Instr} (h : decode (t :: payload) = .ok i rest) :
    payload.length + 1 = chunkLength (chunkKind t) + rest.length := by
  rw [decode] at h
  unfold decodePayload at h
  split at h <;> simp only [DecodeResult.ok.injEq, reduceCtorEq] at h
  all_goals
    obtain ⟨-, rfl⟩ := h
    simp only [*, chunkLength, List.length_cons]
    omega

/-- A list of bytes that is one chunk is complete, and none of its beginnings is (R72). -/
theorem chunkComplete_take_of_decode {bytes : List Byte} {i : Instr} (h : decode bytes = .ok i []) {j : Nat}
    (hj : j ≤ bytes.length) : chunkComplete (bytes.take j) = true ↔ j = bytes.length := by
  rcases bytes with _ | ⟨t, payload⟩
  · simp [decode] at h
  · have hlength := length_of_decode h
    rcases j with _ | j
    · simp [chunkComplete]
    · simp only [List.take_succ_cons, chunkComplete, decide_eq_true_eq, List.length_take, List.length_cons,
        List.length_nil] at hlength hj ⊢
      omega

/-! ### Fetching bytes that are there -/

/-- Bytes fetched in two parts are the bytes fetched at once. -/
theorem fetched_fetched (s : State) (first second : List Byte) (between rest : List InAnswer) :
    fetched (fetched s first between) second rest = fetched s (first ++ second) rest := by
  simp [fetched, Nat.add_assoc]

/-- Bytes that do not yet make a chunk are read one after another, whatever comes after them (R42). -/
theorem fetchBytes_bytesIn (fuel : Nat) {s : State} {bytes : List Byte} {rest : List InAnswer}
    (hi : s.input = bytesIn bytes ++ rest)
    (hc : ∀ j < bytes.length, chunkComplete (s.scratch ++ bytes.take j) = false) :
    fetchBytes (bytes.length + fuel) s = fetchBytes fuel (fetched s bytes rest) := by
  induction bytes generalizing s with
  | nil =>
    have hrest : s.input = rest := hi
    simp [fetched, ← hrest]
  | cons b bytes ih =>
    have hnow : chunkComplete s.scratch = false := by simpa using hc 0 (by simp)
    have hlater (j : Nat) (hj : j < bytes.length) : chunkComplete (s.scratch ++ [b] ++ bytes.take j) = false := by
      simpa using hc (j + 1) (by simpa using hj)
    have hread : readByte s = .byte b { s with input := bytesIn bytes ++ rest, pos := s.pos + 1 } := by
      rw [readByte, hi]
      rfl
    rw [List.length_cons, Nat.add_right_comm, fetchBytes, hnow, hread]
    simp only [Bool.false_eq_true, if_false]
    rw [ih (s := { s with input := _, pos := _, scratch := _ }) rfl hlater]
    exact congrArg (fetchBytes fuel) (fetched_fetched s [b] bytes _ rest)

/-- The bytes of a chunk split in two: with the first part at hand, the chunk is complete at the last byte of the second
part and not before. -/
theorem chunkComplete_append_take_of_decode {first second : List Byte} {i : Instr}
    (h : decode (first ++ second) = .ok i []) {j : Nat} (hj : j ≤ second.length) :
    chunkComplete (first ++ second.take j) = true ↔ j = second.length := by
  rw [← List.take_length_add_append, chunkComplete_take_of_decode h (by simpa using hj), List.length_append,
    Nat.add_left_cancel_iff]

theorem length_le_of_decode {bytes : List Byte} {i : Instr} (h : decode bytes = .ok i []) : bytes.length ≤ 5 := by
  by_contra hlong
  have hfive : chunkComplete (bytes.take 5) = true := chunkComplete_of_five (by rw [List.length_take]; omega)
  have := (chunkComplete_take_of_decode h (by omega)).mp hfive
  omega

/-- With the rest of the chunk there, a fetch completes it. -/
theorem fetchChunk_ready {s : State} {second : List Byte} {i : Instr} {rest : List InAnswer}
    (hd : decode (s.scratch ++ second) = .ok i []) (hi : s.input = bytesIn second ++ rest) :
    fetchChunk s = .ready (fetched s second rest) := by
  have hfive := length_le_of_decode hd
  rw [List.length_append] at hfive
  have hfuel : 6 = second.length + ((5 - second.length) + 1) := by omega
  have hbefore (j : Nat) (hj : j < second.length) : chunkComplete (s.scratch ++ second.take j) = false :=
    Bool.eq_false_iff.mpr fun hc => hj.ne ((chunkComplete_append_take_of_decode hd hj.le).mp hc)
  have hcomplete : chunkComplete (s.scratch ++ second) = true := by
    simpa using (chunkComplete_append_take_of_decode hd le_rfl).mpr rfl
  rw [fetchChunk, hfuel, fetchBytes_bytesIn _ hi hbefore, fetchBytes]
  exact if_pos hcomplete

/-- With a first part of the chunk there, a fetch reads that part and waits (R41). -/
theorem fetchChunk_wait {s : State} {first second : List Byte} {i : Instr} {rest : List InAnswer}
    (hscratch : s.scratch = []) (hd : decode (first ++ second) = .ok i []) (hsecond : second ≠ [])
    (hi : s.input = bytesIn first ++ .wait :: rest) : fetchChunk s = .stop (fetched s first rest) := by
  have hpos : 0 < second.length := List.length_pos_of_ne_nil hsecond
  have hfive := length_le_of_decode hd
  rw [List.length_append] at hfive
  have hfuel : 6 = first.length + ((5 - first.length) + 1) := by omega
  have hshort (j : Nat) (hj : j ≤ first.length) : chunkComplete (s.scratch ++ first.take j) = false := by
    have hiff := chunkComplete_take_of_decode hd (j := j) (by rw [List.length_append]; omega)
    rw [List.take_append_of_le_length hj, List.length_append] at hiff
    rw [hscratch, List.nil_append, Bool.eq_false_iff, Ne, hiff]
    omega
  have hpart : chunkComplete (fetched s first (.wait :: rest)).scratch = false := by
    simpa [fetched] using hshort first.length le_rfl
  rw [fetchChunk, hfuel, fetchBytes_bytesIn _ hi fun j hj => hshort j hj.le, fetchBytes, hpart]
  rfl

/-! ### A chunk in two parts -/

/-- A decoder that reads a chunk, with a silent host: no pixel waits for the sink and no run is pending (R91, R152). -/
structure ReadsChunk (s : State) : Prop where
  host : s.host = []
  phase : s.phase = .decChunks
  offer : s.offer = false
  run : s.run = 0

/-- What has been read of the chunk does not matter. -/
theorem readsChunk_of_atTag {s : State} (h : AtTag s) (input : List InAnswer) (pos : Nat) (scratch : List Byte) :
    ReadsChunk { s with input := input, pos := pos, scratch := scratch } := ⟨h.host, h.phase, h.offer, h.run⟩

theorem ReadsChunk.step_eq {s : State} (h : ReadsChunk s) : step s = decChunksStep s := by
  rw [step_silent h.host, blockStep, h.phase]

/-- A chunk that is all there is executed in the same step (R91). -/
theorem ReadsChunk.step_whole {s : State} {second : List Byte} {i : Instr} {rest : List InAnswer} (h : ReadsChunk s)
    (hd : decode (s.scratch ++ second) = .ok i []) (hi : s.input = bytesIn second ++ rest) :
    step s = execScratch (fetched s second rest) := by
  simp [h.step_eq, decChunksStep, h.offer, h.run, fetchChunk_ready hd hi]

/-- A chunk that is not all there ends the step at its first missing byte (R41). -/
theorem ReadsChunk.step_part {s : State} {first second : List Byte} {i : Instr} {rest : List InAnswer}
    (h : ReadsChunk s) (hscratch : s.scratch = []) (hd : decode (first ++ second) = .ok i []) (hsecond : second ≠ [])
    (hi : s.input = bytesIn first ++ .wait :: rest) : step s = .next (fetched s first rest) := by
  simp [h.step_eq, decChunksStep, h.offer, h.run, fetchChunk_wait hscratch hd hsecond hi]

/-- With a silent host there is always a next state. -/
theorem exists_step_of_silent {s : State} (h : s.host = []) : ∃ t, step s = .next t := by
  obtain ⟨t, ht, -⟩ := blockStep_moves s
  exact ⟨t, (step_silent h).trans ht⟩

/-- Settles O22: the chunk is executed in the state its last byte leaves, which does not depend on the delay. -/
theorem lateBytesDoNotChangeAChunk : Obligations.LateBytesDoNotChangeAChunk := by
  intro s first second i rest hs hd hsecond
  have hscratch : (fetched s first (bytesIn second ++ rest)).scratch = first := by simp [fetched, hs.scratch]
  have hatOnce : step { s with input := bytesIn (first ++ second) ++ rest } =
      execScratch (fetched s (first ++ second) rest) :=
    (readsChunk_of_atTag hs _ _ _).step_whole (by simpa [hs.scratch] using hd) rfl
  have hfirst : step { s with input := bytesIn first ++ .wait :: (bytesIn second ++ rest) } =
      .next (fetched s first (bytesIn second ++ rest)) :=
    (readsChunk_of_atTag hs _ _ _).step_part hs.scratch hd hsecond rfl
  have hreads : ReadsChunk (fetched s first (bytesIn second ++ rest)) := readsChunk_of_atTag hs _ _ _
  have hlate : step (fetched s first (bytesIn second ++ rest)) = execScratch (fetched s (first ++ second) rest) := by
    rw [hreads.step_whole (by rw [hscratch]; exact hd) rfl, fetched_fetched]
  obtain ⟨t, ht⟩ : ∃ t, step { s with input := bytesIn (first ++ second) ++ rest } = .next t :=
    exists_step_of_silent hs.host
  exact ⟨t, ht, run_step hfirst (run_one (hlate.trans (hatOnce.symm.trans ht)))⟩

end Sys2Proof.Machine
end

section
/-! PROOFS. The chunk encoding: which tags each kind has, what a decoder reads, and the values of the encoder's bytes
(R63 to R75). -/

namespace Sys2Proof.Machine

/-! ### Tags -/

/-- The tags of a kind, as numbers (R64). -/
def HasTag : ChunkKind → Nat → Prop
  | .rgb, t => t = 254
  | .rgba, t => t = 255
  | .index, t => t < 64
  | .diff, t => 64 ≤ t ∧ t < 128
  | .luma, t => 128 ≤ t ∧ t < 192
  | .run, t => 192 ≤ t ∧ t < 254

/-- The tests of R64 as tests of the tag's value: the top two bits are its quotient by 64. -/
theorem chunkKind_eq (t : Byte) :
    chunkKind t =
      if t.toNat = 254 then .rgb else if t.toNat = 255 then .rgba else if t.toNat < 64 then .index
      else if t.toNat < 128 then .diff else if t.toNat < 192 then .luma else .run := by
  have hmax : t.toNat < 256 := t.isLt
  have hFE : t = 0xFE ↔ t.toNat = 254 := BitVec.toNat_inj.symm
  have hFF : t = 0xFF ↔ t.toNat = 255 := BitVec.toNat_inj.symm
  have h0 : field t 6 2 = 0 ↔ t.toNat < 64 := by rw [field_eq]; omega
  have h1 : field t 6 2 = 1 ↔ 64 ≤ t.toNat ∧ t.toNat < 128 := by rw [field_eq]; omega
  have h2 : field t 6 2 = 2 ↔ 128 ≤ t.toNat ∧ t.toNat < 192 := by rw [field_eq]; omega
  simp only [chunkKind, hFE, hFF, h0, h1, h2]
  split_ifs
  any_goals rfl
  all_goals omega

/-- The kind of a tag byte is the kind that has its value. -/
theorem chunkKind_eq_iff {t : Byte} {k : ChunkKind} : chunkKind t = k ↔ HasTag k t.toNat := by
  have hmax : t.toNat < 256 := t.isLt
  rw [chunkKind_eq]
  cases k
  all_goals
    rw [HasTag]
    split_ifs <;> simp only [true_iff, false_iff] <;> omega

/-! ### What a decoder reads -/

/-- Everything a decoder can read: a tag of each kind, with its fields or its payload (R63). -/
inductive Decodes : List Byte → Instr → List Byte → Prop
  | rgb {t : Byte} (r g b : Byte) (rest : List Byte) (kind : chunkKind t = .rgb) :
      Decodes (t :: r :: g :: b :: rest) (.rgb r g b) rest
  | rgba {t : Byte} (r g b a : Byte) (rest : List Byte) (kind : chunkKind t = .rgba) :
      Decodes (t :: r :: g :: b :: a :: rest) (.rgba r g b a) rest
  | index {t : Byte} {j : Fin 64} (rest : List Byte) (kind : chunkKind t = .index) (fields : decodeIndex t = .index j) :
      Decodes (t :: rest) (.index j) rest
  | diff {t : Byte} {dr dg db : Int} (rest : List Byte) (kind : chunkKind t = .diff)
      (fields : decodeDiff t = .diff dr dg db) : Decodes (t :: rest) (.diff dr dg db) rest
  | luma {t p : Byte} {dg drg dbg : Int} (rest : List Byte) (kind : chunkKind t = .luma)
      (fields : decodeLuma t p = .luma dg drg dbg) : Decodes (t :: p :: rest) (.luma dg drg dbg) rest
  | run {t : Byte} {n : Nat} (rest : List Byte) (kind : chunkKind t = .run) (fields : decodeRun t = .run n) :
      Decodes (t :: rest) (.run n) rest

/-- The relation is the decoder's. -/
theorem decode_eq_ok_iff {bytes rest : List Byte} {i : Instr} :
    decode bytes = .ok i rest ↔ Decodes bytes i rest := by
  constructor
  · intro h
    rcases bytes with _ | ⟨t, payload⟩
    · simp [decode] at h
    · rw [decode] at h
      unfold decodePayload at h
      split at h <;> cases h
      next kind => exact .rgb _ _ _ _ kind
      next kind => exact .rgba _ _ _ _ _ kind
      next kind => exact .index _ kind rfl
      next kind => exact .diff _ kind rfl
      next kind => exact .luma _ kind rfl
      next kind => exact .run _ kind rfl
  · intro h
    cases h with
    | rgb _ _ _ _ kind | rgba _ _ _ _ _ kind =>
      rw [decode, kind]
      rfl
    | index _ kind fields | diff _ kind fields | luma _ kind fields | run _ kind fields =>
      rw [decode, kind, ← fields]
      rfl

/-- The chunk has the kind of its tag, and its length is that kind's (R63, R72). -/
theorem Decodes.kind_and_rest {t : Byte} {payload rest : List Byte} {i : Instr} (h : Decodes (t :: payload) i rest) :
    i.kind = chunkKind t ∧ rest = payload.drop (chunkLength (chunkKind t) - 1) := by
  cases h with
  | rgb _ _ _ _ kind | rgba _ _ _ _ _ kind | index _ kind | diff _ kind | luma _ kind | run _ kind =>
    rw [kind]
    exact ⟨rfl, rfl⟩

/-- A list with the length of its tag's kind is a chunk of that kind and what follows (R72, R75). -/
theorem decode_of_length_le {t : Byte} {payload : List Byte} (h : chunkLength (chunkKind t) ≤ payload.length + 1) :
    ∃ i, decode (t :: payload) = .ok i (payload.drop (chunkLength (chunkKind t) - 1)) ∧ i.kind = chunkKind t := by
  obtain ⟨i, rest, hd⟩ : ∃ i rest, decode (t :: payload) = .ok i rest :=
    decode_of_chunkComplete (by simpa [chunkComplete] using h)
  obtain ⟨hkind, hrest⟩ := (decode_eq_ok_iff.mp hd).kind_and_rest
  exact ⟨i, hrest ▸ hd, hkind⟩

/-- A shorter list is rejected by the name of that kind. -/
theorem decode_of_length_lt {t : Byte} {payload : List Byte} (h : payload.length + 1 < chunkLength (chunkKind t)) :
    decode (t :: payload) = .reject (.shortPayload (chunkKind t)) := by
  rw [decode]
  unfold decodePayload
  split
  case h_7 => rfl
  all_goals
    next hkind =>
      simp only [hkind, chunkLength, List.length_cons] at h
      omega

/-- The length of a chunk from the value of its tag (R72). -/
theorem chunkLength_chunkKind (t : Byte) :
    chunkLength (chunkKind t) =
      if t.toNat = 254 then 4 else if t.toNat = 255 then 5
      else if 128 ≤ t.toNat ∧ t.toNat < 192 then 2 else 1 := by
  rw [chunkKind_eq]
  split_ifs <;> simp only [chunkLength] <;> omega

/-- Settles O3: the tag's value gives the kind, and the kind the length. -/
theorem tagByteAloneSelectsKindAndLength : Obligations.TagByteAloneSelectsKindAndLength := by
  refine ⟨rfl, fun t payload => ?_⟩
  rw [← chunkKind_eq, ← chunkLength_chunkKind]
  exact ⟨decode_of_length_le, decode_of_length_lt⟩

/-! ### The fields of a decoded chunk -/

theorem decodeDiff_eq (t : Byte) :
    decodeDiff t =
      .diff ((t.toNat / 16 % 4 : Nat) - 2) ((t.toNat / 4 % 4 : Nat) - 2) ((t.toNat % 4 : Nat) - 2) := by
  simp [decodeDiff, biased, field_eq]

theorem decodeLuma_eq (t p : Byte) :
    decodeLuma t p =
      .luma ((t.toNat % 64 : Nat) - 32) ((p.toNat / 16 : Nat) - 8) ((p.toNat % 16 : Nat) - 8) := by
  have hnibble : p.toNat / 16 % 16 = p.toNat / 16 := Nat.mod_eq_of_lt (by have := p.isLt; omega)
  simp [decodeLuma, biased, field_eq, hnibble]

theorem decodeRun_eq (t : Byte) : decodeRun t = .run (t.toNat % 64 + 1) := by
  simp [decodeRun, field_eq]

theorem decodeIndex_eq_iff {t : Byte} {i : Fin 64} : decodeIndex t = .index i ↔ t.toNat % 64 = i.val := by
  simp [decodeIndex, field_eq, Fin.ext_iff]

/-- Settles O4: each tag's kind is read off its value, and the decoder's fields have those values. -/
theorem chunkFieldsHaveTheirBitsAndBiases : Obligations.ChunkFieldsHaveTheirBitsAndBiases := by
  intro t p q r a rest
  refine ⟨fun h => ⟨⟨t.toNat, h⟩, rfl, ?_⟩, fun h => ?_, fun h => ?_, rfl, rfl⟩
  · exact decode_eq_ok_iff.mpr (.index rest (chunkKind_eq_iff.mpr h) (decodeIndex_eq_iff.mpr (Nat.mod_eq_of_lt h)))
  · exact decode_eq_ok_iff.mpr (.luma rest (chunkKind_eq_iff.mpr h) (decodeLuma_eq t p))
  · exact decode_eq_ok_iff.mpr (.run rest (chunkKind_eq_iff.mpr h) (decodeRun_eq t))

/-- Settles O5: a tag from 64 to 127 is DIFF's, and the decoder's fields have those values. -/
theorem diffFieldsHaveTheirBitsAndBias : Obligations.DiffFieldsHaveTheirBitsAndBias := fun t rest h =>
  decode_eq_ok_iff.mpr (.diff rest (chunkKind_eq_iff.mpr h) (decodeDiff_eq t))

/-! ### Well-formed operands -/

theorem wf_diff_iff {dr dg db : Int} :
    (Instr.diff dr dg db).wf = true ↔ (-2 ≤ dr ∧ dr ≤ 1) ∧ (-2 ≤ dg ∧ dg ≤ 1) ∧ -2 ≤ db ∧ db ≤ 1 := by
  simp [Instr.wf, inRange, and_assoc]

theorem wf_luma_iff {dg drg dbg : Int} :
    (Instr.luma dg drg dbg).wf = true ↔
      (-32 ≤ dg ∧ dg ≤ 31) ∧ (-8 ≤ drg ∧ drg ≤ 7) ∧ -8 ≤ dbg ∧ dbg ≤ 7 := by
  simp [Instr.wf, inRange, and_assoc]

theorem wf_run_iff {n : Nat} : (Instr.run n).wf = true ↔ 1 ≤ n ∧ n ≤ 62 := by
  simp [Instr.wf]

/-! ### The values of the encoder's bytes -/

theorem byteOf_toNat {x : Int} (h0 : 0 ≤ x) (h : x < 256) : (byteOf x).toNat = x.toNat := by
  rw [byteOf, BitVec.toNat_ofInt]
  omega

/-- A field moved up by `n` bits, none of which is lost. -/
theorem byteOf_shiftLeft_toNat {x : Int} (n : Nat) (h0 : 0 ≤ x) (h : x.toNat * 2 ^ n < 256) :
    (byteOf x <<< n).toNat = x.toNat * 2 ^ n := by
  have hx : x.toNat < 256 := (Nat.le_mul_of_pos_right _ (Nat.two_pow_pos n)).trans_lt h
  rw [BitVec.toNat_shiftLeft, byteOf_toNat h0 (by omega), Nat.shiftLeft_eq, Nat.mod_eq_of_lt h]

/-- A field placed below the bits already in a byte adds its value (R74). -/
theorem byte_or_toNat {high low : Byte} {a b : Nat} (n : Nat) (hhigh : high.toNat = a) (hlow : low.toNat = b)
    (ha : 2 ^ n ∣ a) (hb : b < 2 ^ n) : (high ||| low).toNat = a + b := by
  obtain ⟨k, rfl⟩ := ha
  rw [BitVec.toNat_or, hhigh, hlow, Nat.two_pow_add_eq_or_of_lt hb]

/-- The tag of INDEX is the slot (R65, R74). -/
theorem encIndex_eq_iff {i : Fin 64} {t : Byte} : encIndex i = [t] ↔ t.toNat = i.val := by
  rw [encIndex, List.singleton_inj, ← BitVec.toNat_inj, byteOf_toNat (by omega) (by omega), Int.toNat_natCast,
    eq_comm]

/-- The tag of DIFF is the sum of its fields (R66, R74). -/
theorem encDiff_eq_iff {dr dg db : Int} {t : Byte} (h : (Instr.diff dr dg db).wf = true) :
    encDiff dr dg db = [t] ↔ (t.toNat : Int) = 64 + (dr + 2) * 16 + (dg + 2) * 4 + (db + 2) := by
  obtain ⟨⟨hr1, hr2⟩, ⟨hg1, hg2⟩, hb1, hb2⟩ := wf_diff_iff.mp h
  have hr := byteOf_shiftLeft_toNat (x := dr + 2) 4 (by omega) (by omega)
  have hg := byteOf_shiftLeft_toNat (x := dg + 2) 2 (by omega) (by omega)
  have hb := byteOf_toNat (x := db + 2) (by omega) (by omega)
  have hred := byte_or_toNat (high := 0x40#8) (a := 64) 6 rfl hr (by omega) (by omega)
  have hgreen := byte_or_toNat 4 hred hg (by omega) (by omega)
  have hblue := byte_or_toNat 2 hgreen hb (by omega) (by omega)
  rw [encDiff, List.singleton_inj, ← BitVec.toNat_inj, hblue]
  omega

/-- The two bytes of LUMA are the sums of their fields (R67, R74). -/
theorem encLuma_eq_iff {dg drg dbg : Int} {t p : Byte} (h : (Instr.luma dg drg dbg).wf = true) :
    encLuma dg drg dbg = [t, p] ↔
      (t.toNat : Int) = 128 + (dg + 32) ∧ (p.toNat : Int) = (drg + 8) * 16 + (dbg + 8) := by
  obtain ⟨⟨hg1, hg2⟩, ⟨hrg1, hrg2⟩, hbg1, hbg2⟩ := wf_luma_iff.mp h
  have hg := byteOf_toNat (x := dg + 32) (by omega) (by omega)
  have hrg := byteOf_shiftLeft_toNat (x := drg + 8) 4 (by omega) (by omega)
  have hbg := byteOf_toNat (x := dbg + 8) (by omega) (by omega)
  have htag := byte_or_toNat (high := 0x80#8) (a := 128) 6 rfl hg (by omega) (by omega)
  have hpayload := byte_or_toNat 4 hrg hbg (by omega) (by omega)
  rw [encLuma, List.cons_eq_cons, List.singleton_inj, ← BitVec.toNat_inj, ← BitVec.toNat_inj, htag, hpayload]
  omega

/-- The tag of RUN is 192 and the run length less one (R68, R74). -/
theorem encRun_eq_iff {n : Nat} {t : Byte} (h : (Instr.run n).wf = true) :
    encRun n = [t] ↔ t.toNat = 192 + (n - 1) := by
  obtain ⟨h1, h2⟩ := wf_run_iff.mp h
  have hn := byteOf_toNat (x := (n : Int) - 1) (by omega) (by omega)
  have htag := byte_or_toNat (high := 0xC0#8) (a := 192) 6 rfl hn (by omega) (by omega)
  rw [encRun, encRunTag, List.singleton_inj, ← BitVec.toNat_inj, htag]
  omega

/-! ### Each kind's decoder inverts its encoder -/

theorem index_decoded_iff {t : Byte} {i : Fin 64} :
    chunkKind t = .index ∧ decodeIndex t = .index i ↔ encIndex i = [t] := by
  rw [encIndex_eq_iff, chunkKind_eq_iff, HasTag, decodeIndex_eq_iff]
  omega

/-- The fields are the three low base-4 digits of the tag, and the digit above them is 1 (R66, R73). -/
theorem diff_decoded_iff {t : Byte} {dr dg db : Int} :
    chunkKind t = .diff ∧ decodeDiff t = .diff dr dg db ↔
      (Instr.diff dr dg db).wf = true ∧ encDiff dr dg db = [t] := by
  rw [and_congr_right (encDiff_eq_iff (dr := dr) (t := t)), wf_diff_iff, chunkKind_eq_iff, HasTag, decodeDiff_eq,
    Instr.diff.injEq]
  omega

/-- The fields of the payload are its base-16 digits (R67, R73). -/
theorem luma_decoded_iff {t p : Byte} {dg drg dbg : Int} :
    chunkKind t = .luma ∧ decodeLuma t p = .luma dg drg dbg ↔
      (Instr.luma dg drg dbg).wf = true ∧ encLuma dg drg dbg = [t, p] := by
  have hp : p.toNat < 256 := p.isLt
  rw [and_congr_right (encLuma_eq_iff (dg := dg) (t := t)), wf_luma_iff, chunkKind_eq_iff, HasTag, decodeLuma_eq,
    Instr.luma.injEq]
  omega

/-- The tags `0xFE` and `0xFF` are the lengths 63 and 64, which have no encoding (R68, R73). -/
theorem run_decoded_iff {t : Byte} {n : Nat} :
    chunkKind t = .run ∧ decodeRun t = .run n ↔ (Instr.run n).wf = true ∧ encRun n = [t] := by
  rw [and_congr_right (encRun_eq_iff (n := n) (t := t)), wf_run_iff, chunkKind_eq_iff, HasTag, decodeRun_eq,
    Instr.run.injEq]
  omega

/-! ### Decoding and encoding -/

/-- A well-formed chunk is read from its encoding (R74). -/
theorem decodes_encode {i : Instr} (h : i.wf = true) (rest : List Byte) : Decodes (encode i ++ rest) i rest := by
  cases i with
  | rgb r g b => exact .rgb r g b rest (chunkKind_eq_iff.mpr rfl)
  | rgba r g b a => exact .rgba r g b a rest (chunkKind_eq_iff.mpr rfl)
  | index j =>
    obtain ⟨kind, fields⟩ := index_decoded_iff.mpr (rfl : encIndex j = _)
    exact .index rest kind fields
  | diff dr dg db =>
    obtain ⟨kind, fields⟩ := diff_decoded_iff.mpr ⟨h, rfl⟩
    exact .diff rest kind fields
  | luma dg drg dbg =>
    obtain ⟨kind, fields⟩ := luma_decoded_iff.mpr ⟨h, rfl⟩
    exact .luma rest kind fields
  | run n =>
    obtain ⟨kind, fields⟩ := run_decoded_iff.mpr ⟨h, rfl⟩
    exact .run rest kind fields

/-- Settles O1: the decoder reads each well-formed chunk from its encoding. -/
theorem decodeInvertsEncode : Obligations.DecodeInvertsEncode := fun _ rest h =>
  decode_eq_ok_iff.mpr (decodes_encode h rest)

/-- A chunk that is read is well formed, and its encoding is the bytes read (R73, R74). -/
theorem Decodes.wf_and_bytes {bytes rest : List Byte} {i : Instr} (h : Decodes bytes i rest) :
    i.wf = true ∧ bytes = encode i ++ rest := by
  cases h with
  | @rgb t _ _ _ _ kind =>
    obtain rfl : t = 0xFE := BitVec.eq_of_toNat_eq (chunkKind_eq_iff.mp kind)
    exact ⟨rfl, rfl⟩
  | @rgba t _ _ _ _ _ kind =>
    obtain rfl : t = 0xFF := BitVec.eq_of_toNat_eq (chunkKind_eq_iff.mp kind)
    exact ⟨rfl, rfl⟩
  | index _ kind fields =>
    have henc := index_decoded_iff.mp ⟨kind, fields⟩
    exact ⟨rfl, congrArg (· ++ rest) henc.symm⟩
  | diff _ kind fields =>
    obtain ⟨hwf, henc⟩ := diff_decoded_iff.mp ⟨kind, fields⟩
    exact ⟨hwf, congrArg (· ++ rest) henc.symm⟩
  | luma _ kind fields =>
    obtain ⟨hwf, henc⟩ := luma_decoded_iff.mp ⟨kind, fields⟩
    exact ⟨hwf, congrArg (· ++ rest) henc.symm⟩
  | run _ kind fields =>
    obtain ⟨hwf, henc⟩ := run_decoded_iff.mp ⟨kind, fields⟩
    exact ⟨hwf, congrArg (· ++ rest) henc.symm⟩

theorem encode_length (i : Instr) : (encode i).length = chunkLength i.kind := by
  cases i <;> rfl

/-- Settles O2: what the decoder reads is well formed and in its one encoding. -/
theorem decodedChunkReencodesToItsBytes : Obligations.DecodedChunkReencodesToItsBytes := by
  intro bytes rest i h
  obtain ⟨hwf, hbytes⟩ := (decode_eq_ok_iff.mp h).wf_and_bytes
  exact ⟨hwf, hbytes, encode_length i⟩

end Sys2Proof.Machine
end

section
/-! PROOFS. The header of a DECODE: its bytes field by field, its checks, and the reads that fail (R79 to R87). -/

namespace Sys2Proof.Machine

open Sys2Proof.Statements

/-! ### One byte of the header -/

/-- The block reads a header, with a silent host. -/
structure ReadsHeader (s : State) : Prop where
  host : s.host = []
  phase : s.phase = .decHeader

/-- A started DECODE or DECODE_CONFIG reads a header. -/
theorem readsHeader_of_fresh {o : Op} {s : State} (h : FreshDecode o s) : ReadsHeader s := ⟨h.host, h.phase⟩

theorem ReadsHeader.step_eq {s : State} (h : ReadsHeader s) : step s = .next (decHeaderStep s) := by
  rw [step_silent h.host, blockStep, h.phase]

/-- A byte that is there is taken at its offset (R79). -/
theorem ReadsHeader.step_byte {s : State} {b : Byte} {rest : List InAnswer} (h : ReadsHeader s)
    (hi : s.input = .byte b :: rest) :
    step s = .next (takeHeaderByte s.pos b { s with input := rest, pos := s.pos + 1 }) := by
  rw [h.step_eq, decHeaderStep, readByte, hi]

/-- Settles O28: a read that fails ends the step in `raise` or `raiseIo` at `pos`. -/
theorem headerReadFailureEndsTheOperation : Obligations.HeaderReadFailureEndsTheOperation := by
  intro s rest hhost hphase
  have hstep := ReadsHeader.step_eq ⟨hhost, hphase⟩
  refine ⟨fun hi => ?_, fun e hi => ?_⟩
  all_goals
    rw [hstep, decHeaderStep, readByte, hi]
    rfl

/-! ### A field of four bytes -/

/-- The offsets whose byte completes no field (R79). -/
def GathersAt (o : Nat) : Prop := o < 12 ∧ o % 4 ≠ 3

theorem takeHeaderByte_gathers {o : Nat} (h : GathersAt o) (b : Byte) (s : State) :
    takeHeaderByte o b s = { s with scratch := s.scratch ++ [b] } := by
  obtain ⟨hlt, hmod⟩ := h
  have h3 : o ≠ 3 := by omega
  have h7 : o ≠ 7 := by omega
  have h11 : o ≠ 11 := by omega
  have h12 : o ≠ 12 := by omega
  have h13 : o ≠ 13 := by omega
  simp only [takeHeaderByte, h3, h7, h11, h12, h13, if_false]

/-- Bytes before the last one of a field gather in the scratch, whatever they are (R80, R81). -/
theorem run_gathers {s : State} {bytes : List Byte} {rest : List InAnswer} (h : ReadsHeader s)
    (hi : s.input = bytesIn bytes ++ rest) (hg : ∀ j < bytes.length, GathersAt (s.pos + j)) :
    runs bytes.length s (fetched s bytes rest) := by
  induction bytes generalizing s with
  | nil =>
    have hrest : s.input = rest := hi
    have hsame : fetched s [] rest = s := by simp [fetched, ← hrest]
    rw [hsame]
    exact run_zero s
  | cons b bytes ih =>
    have hnow : GathersAt s.pos := hg 0 (by simp)
    have hlater (j : Nat) (hj : j < bytes.length) : GathersAt (s.pos + 1 + j) := by
      rw [Nat.add_right_comm]
      exact hg (j + 1) (by simpa using hj)
    have hstep : step s = .next (fetched s [b] (bytesIn bytes ++ rest)) := by
      rw [h.step_byte hi, takeHeaderByte_gathers hnow]
      rfl
    have hrun := ih (s := fetched s [b] (bytesIn bytes ++ rest)) ⟨h.host, h.phase⟩ rfl hlater
    rw [fetched_fetched] at hrun
    exact run_step hstep hrun

/-- The four bytes of a field: three gather, and the fourth is taken with them in the scratch. -/
theorem run_field {s : State} {b0 b1 b2 b3 : Byte} {rest : List InAnswer} (h : ReadsHeader s)
    (hscratch : s.scratch = []) (hpos : s.pos = 0 ∨ s.pos = 4 ∨ s.pos = 8)
    (hi : s.input = bytesIn [b0, b1, b2, b3] ++ rest) :
    runs 4 s (takeHeaderByte (s.pos + 3) b3
      { s with input := rest, pos := s.pos + 4, scratch := [b0, b1, b2] }) := by
  have hg (j : Nat) (hj : j < [b0, b1, b2].length) : GathersAt (s.pos + j) := by
    have hlt : j < 3 := hj
    rcases hpos with hpos | hpos | hpos <;> rw [hpos, GathersAt] <;> omega
  have hthree : runs 3 s (fetched s [b0, b1, b2] (.byte b3 :: rest)) :=
    run_gathers (bytes := [b0, b1, b2]) h hi hg
  have hreads : ReadsHeader (fetched s [b0, b1, b2] (.byte b3 :: rest)) := ⟨h.host, h.phase⟩
  have hfourth := hreads.step_byte rfl
  simp only [fetched, hscratch, List.nil_append] at hthree hfourth
  exact run_trans hthree (run_one hfourth)

/-! ### The magic and the dimensions -/

/-- The value of four bytes of a field, which have the layout of a pixel word (R48). -/
theorem bigEndian32_toNat (b0 b1 b2 b3 : Byte) : (bigEndian32 b0 b1 b2 b3).toNat = bigEndian b0 b1 b2 b3 :=
  packPixel_toNat ⟨b0, b1, b2, b3⟩

theorem bigEndian32_setWidth (b0 b1 b2 b3 : Byte) :
    (bigEndian32 b0 b1 b2 b3).setWidth 64 = BitVec.ofNat 64 (bigEndian b0 b1 b2 b3) := by
  rw [← bigEndian32_toNat, BitVec.ofNat_toNat]

/-- A dimension of four bytes fits its register (R81). -/
theorem toNat_ofNat_bigEndian (b0 b1 b2 b3 : Byte) :
    (BitVec.ofNat 64 (bigEndian b0 b1 b2 b3)).toNat = bigEndian b0 b1 b2 b3 := by
  rw [← bigEndian32_setWidth, BitVec.toNat_setWidth_of_le (by decide), bigEndian32_toNat]

/-- The four bytes are the magic word only where they are the magic's bytes (R61; log 19). -/
theorem bytes_of_bigEndian32_eq_magicWord {m0 m1 m2 m3 : Byte} (h : bigEndian32 m0 m1 m2 m3 = magicWord) :
    [m0, m1, m2, m3] = [0x71, 0x6F, 0x69, 0x66] := by
  have hpixel : (⟨m0, m1, m2, m3⟩ : Pixel) = ⟨0x71, 0x6F, 0x69, 0x66⟩ :=
    Function.LeftInverse.injective unpackPixel_packPixel h
  cases hpixel
  rfl

/-- The first four bytes are compared with the magic (R80). -/
theorem run_magic {s : State} {b0 b1 b2 b3 : Byte} {rest : List InAnswer} (h : ReadsHeader s)
    (hscratch : s.scratch = []) (hpos : s.pos = 0) (hi : s.input = bytesIn [b0, b1, b2, b3] ++ rest) :
    runs 4 s (takeMagic (bigEndian32 b0 b1 b2 b3) { s with input := rest, pos := 4 }) := by
  have hrun := run_field h hscratch (.inl hpos) hi
  rw [hpos] at hrun
  rw [hscratch]
  exact hrun

/-- The next four bytes are WIDTH (R81). -/
theorem run_width {s : State} {b0 b1 b2 b3 : Byte} {rest : List InAnswer} (h : ReadsHeader s)
    (hscratch : s.scratch = []) (hpos : s.pos = 4) (hi : s.input = bytesIn [b0, b1, b2, b3] ++ rest) :
    runs 4 s { s with input := rest, pos := 8, width := BitVec.ofNat 64 (bigEndian b0 b1 b2 b3) } := by
  have hrun := run_field h hscratch (.inr (.inl hpos)) hi
  rw [hpos] at hrun
  rw [hscratch, ← bigEndian32_setWidth]
  exact hrun

/-- The four after them are HEIGHT (R81). -/
theorem run_height {s : State} {b0 b1 b2 b3 : Byte} {rest : List InAnswer} (h : ReadsHeader s)
    (hscratch : s.scratch = []) (hpos : s.pos = 8) (hi : s.input = bytesIn [b0, b1, b2, b3] ++ rest) :
    runs 4 s { s with input := rest, pos := 12, height := BitVec.ofNat 64 (bigEndian b0 b1 b2 b3) } := by
  have hrun := run_field h hscratch (.inr (.inr hpos)) hi
  rw [hpos] at hrun
  rw [hscratch, ← bigEndian32_setWidth]
  exact hrun

/-- The state in which a header with dimensions `w` and `h` has been read up to offset `pos`. -/
def headerRead (s : State) (rest : List InAnswer) (pos w h : Nat) : State :=
  { s with input := rest, pos := pos, width := BitVec.ofNat 64 w, height := BitVec.ofNat 64 h }

/-- The state in which all 14 bytes of a header have been read and its format bytes are good. -/
def formatRead (s : State) (rest : List InAnswer) (w h : Nat) (c f : Byte) : State :=
  { headerRead s rest 14 w h with channels := c, colorspace := f }

/-- The fields before CHANNELS: after a right magic the two dimensions hold what was read (R80, R81). -/
theorem run_dimensions {o : Op} {s : State} {w0 w1 w2 w3 h0 h1 h2 h3 : Byte} {rest : List InAnswer}
    (h : FreshDecode o s) (hi : s.input = bytesIn [0x71, 0x6F, 0x69, 0x66, w0, w1, w2, w3, h0, h1, h2, h3] ++ rest) :
    runs 12 s (headerRead s rest 12 (bigEndian w0 w1 w2 w3) (bigEndian h0 h1 h2 h3)) := by
  have hmagic := run_magic (readsHeader_of_fresh h) h.scratch h.pos
    (rest := bytesIn [w0, w1, w2, w3] ++ (bytesIn [h0, h1, h2, h3] ++ rest)) hi
  rw [takeMagic, if_pos (by decide)] at hmagic
  exact run_trans (run_trans hmagic (run_width ⟨h.host, h.phase⟩ h.scratch rfl rfl))
    (run_height ⟨h.host, h.phase⟩ h.scratch rfl rfl)

/-! ### A wrong or missing magic -/

/-- The first bytes of the magic gather, whatever they are. -/
theorem run_magic_part {o : Op} {s : State} {bytes : List Byte} {rest : List InAnswer} (h : FreshDecode o s)
    (hlen : bytes.length < 4) (hi : s.input = bytesIn bytes ++ rest) :
    runs bytes.length s { s with input := rest, pos := bytes.length, scratch := bytes } := by
  have hg (j : Nat) (hj : j < bytes.length) : GathersAt (s.pos + j) := by
    rw [h.pos, GathersAt]
    omega
  have hrun := run_gathers (readsHeader_of_fresh h) hi hg
  simp only [fetched, h.pos, h.scratch, Nat.zero_add, List.nil_append] at hrun
  exact hrun

/-- Settles O25: the bytes before the fourth gather unseen, so that a read can fail there, and the fourth has them
compared. -/
theorem wrongMagicEndsTheOperation : Obligations.WrongMagicEndsTheOperation := by
  intro s o m0 m1 m2 m3 rest _ hs magic
  refine ⟨fun hwrong hi => ?_, fun j hj => ?_⟩
  · have hne : bigEndian32 m0 m1 m2 m3 ≠ magicWord := mt bytes_of_bigEndian32_eq_magicWord hwrong
    have hrun := run_magic (readsHeader_of_fresh hs) hs.scratch hs.pos hi
    rw [takeMagic, if_neg hne, bigEndian32_setWidth] at hrun
    rw [← hs.ioErr]
    exact hrun
  · have hlen : (magic.take j).length = j := List.length_take_of_le hj.le
    have hpart {next : List InAnswer} (hi : s.input = bytesIn (magic.take j) ++ next) :
        runs j s { s with input := next, pos := j, scratch := magic.take j } := by
      have hrun := run_magic_part hs (hlen.trans_lt hj) hi
      rwa [hlen] at hrun
    refine ⟨fun hi => ?_, fun e hi => ?_⟩
    · obtain ⟨heof, -⟩ := headerReadFailureEndsTheOperation
        { s with input := .eof :: rest, pos := j, scratch := magic.take j } rest hs.host hs.phase
      rw [← hs.ioErr]
      exact run_trans (hpart hi) (run_one (heof rfl))
    · obtain ⟨-, hfail⟩ := headerReadFailureEndsTheOperation
        { s with input := .ioErr e :: rest, pos := j, scratch := magic.take j } rest hs.host hs.phase
      exact run_trans (hpart hi) (run_one (hfail e rfl))

/-! ### The format bytes and the geometry -/

theorem legalChannels_iff {b : Byte} : legalChannels b = true ↔ b = 3 ∨ b = 4 := by
  simp [legalChannels]

theorem legalColorspace_iff {b : Byte} : legalColorspace b = true ↔ b = 0 ∨ b = 1 := by
  simp [legalColorspace]

theorem takeChannels_legal {b : Byte} (h : legalChannels b = true) (s : State) :
    takeChannels b s = { s with channels := b } := if_pos h

theorem takeChannels_illegal {b : Byte} (h : ¬ legalChannels b = true) (s : State) :
    takeChannels b s = raise .badChannels 12 (b.setWidth 64) { s with channels := b } := if_neg h

theorem takeColorspace_legal {b : Byte} (h : legalColorspace b = true) (s : State) :
    takeColorspace b s = headerComplete { s with colorspace := b } := if_pos h

theorem takeColorspace_illegal {b : Byte} (h : ¬ legalColorspace b = true) (s : State) :
    takeColorspace b s = raise .badColorspace 13 (b.setWidth 64) { s with colorspace := b } := if_neg h

section Format

variable {o : Op} {s : State} {w0 w1 w2 w3 h0 h1 h2 h3 c f : Byte} {rest : List InAnswer}

/-- The byte after the dimensions is CHANNELS (R82). -/
theorem run_channels (h : FreshDecode o s)
    (hi : s.input = bytesIn [0x71, 0x6F, 0x69, 0x66, w0, w1, w2, w3, h0, h1, h2, h3, c] ++ rest) :
    runs 13 s (takeChannels c (headerRead s rest 13 (bigEndian w0 w1 w2 w3) (bigEndian h0 h1 h2 h3))) :=
  run_trans (run_dimensions (rest := .byte c :: rest) h hi) (run_one (ReadsHeader.step_byte ⟨h.host, h.phase⟩ rfl))

/-- After good CHANNELS the next byte is COLORSPACE (R83). -/
theorem run_colorspace (h : FreshDecode o s) (hc : legalChannels c = true)
    (hi : s.input = bytesIn [0x71, 0x6F, 0x69, 0x66, w0, w1, w2, w3, h0, h1, h2, h3, c, f] ++ rest) :
    runs 14 s (takeColorspace f
      { headerRead s rest 14 (bigEndian w0 w1 w2 w3) (bigEndian h0 h1 h2 h3) with channels := c }) := by
  have hchannels := run_channels (rest := .byte f :: rest) h hi
  rw [takeChannels_legal hc] at hchannels
  exact run_trans hchannels (run_one (ReadsHeader.step_byte ⟨h.host, h.phase⟩ rfl))

/-- After good format bytes the geometry is checked (R84). -/
theorem run_headerComplete (h : FreshDecode o s) (hc : c = 3 ∨ c = 4) (hf : f = 0 ∨ f = 1)
    (hi : s.input = bytesIn [0x71, 0x6F, 0x69, 0x66, w0, w1, w2, w3, h0, h1, h2, h3, c, f] ++ rest) :
    runs 14 s (headerComplete
      (formatRead s rest (bigEndian w0 w1 w2 w3) (bigEndian h0 h1 h2 h3) c f)) := by
  have hrun := run_colorspace h (legalChannels_iff.mpr hc) hi
  rw [takeColorspace_legal (legalColorspace_iff.mpr hf)] at hrun
  exact hrun

end Format

/-- Settles O26: each field is checked in the state its last byte leaves. -/
theorem headerFieldsAreCheckedInOrder : Obligations.HeaderFieldsAreCheckedInOrder := by
  intro s o w0 w1 w2 w3 h0 h1 h2 h3 c f rest _ hs w h named mask upTo12
  rw [← hs.ioErr]
  refine ⟨fun hi hc => ?_, fun hi hc hf => ?_, fun hi hc hf hm => ?_⟩
  · have hrun := run_channels hs hi
    rw [takeChannels_illegal (mt legalChannels_iff.mp hc)] at hrun
    exact hrun
  · have hrun := run_colorspace hs (legalChannels_iff.mpr hc) hi
    rw [takeColorspace_illegal (mt legalColorspace_iff.mp hf)] at hrun
    exact hrun
  · have hmask : decodeGeometryMask s.maxPixels (BitVec.ofNat 64 w).toNat (BitVec.ofNat 64 h).toNat = mask := by
      rw [toNat_ofNat_bigEndian, toNat_ofNat_bigEndian]
      rfl
    have hrun := run_headerComplete hs hc hf hi
    have hbad := headerComplete_bad (s := formatRead s rest w h c f) (hmask.trans_ne hm)
    rw [hbad] at hrun
    rw [← hmask]
    exact hrun

/-- No failing condition where both dimensions are positive and the image is within MAX_PIXELS (R84). -/
theorem decodeGeometryMask_zero {m w h : Nat} (hw : w ≠ 0) (hh : h ≠ 0) (hm : w * h ≤ m) :
    decodeGeometryMask m w h = 0 := by
  simp only [decodeGeometryMask, hw, hh, Nat.not_lt.mpr hm, if_false]

/-- Settles O27: the geometry check passes, and OP says which of the two operations goes on. -/
theorem goodHeaderIsAccepted : Obligations.GoodHeaderIsAccepted := by
  intro s o w0 w1 w2 w3 h0 h1 h2 h3 c f rest hs w h hi hc hf hw hh hlimit read
  have hwidth : (BitVec.ofNat 64 w).toNat = w := toNat_ofNat_bigEndian w0 w1 w2 w3
  have hheight : (BitVec.ofNat 64 h).toNat = h := toNat_ofNat_bigEndian h0 h1 h2 h3
  have hmask : decodeGeometryMask s.maxPixels (BitVec.ofNat 64 w).toNat (BitVec.ofNat 64 h).toNat = 0 := by
    rw [hwidth, hheight]
    exact decodeGeometryMask_zero hw hh hlimit
  have hnpix : read.npix = (BitVec.ofNat 64 w).toNat * (BitVec.ofNat 64 h).toNat := by
    rw [hwidth, hheight]
  have hrun := run_headerComplete hs hc hf hi
  refine ⟨fun ho => ?_, fun ho => ?_⟩
  · have hop : s.op ≠ .decodeConfig := by simp [hs.op, ho]
    have hstream := headerComplete_stream (s := formatRead s rest w h c f) hmask hop
    rw [hstream] at hrun
    rw [hnpix]
    exact hrun
  · have hop : s.op = .decodeConfig := hs.op.trans ho
    have hdone := headerComplete_config (s := formatRead s rest w h c f) hmask hop
    rw [hdone] at hrun
    rw [hnpix]
    exact hrun

end Sys2Proof.Machine
end

section
/-! PROOFS. The header of an ENCODE: its 14 bytes in order (R88, R105). -/

namespace Sys2Proof.Machine

open Sys2Proof.Statements

/-- The block writes a header, with a silent host. -/
structure WritesHeader (s : State) : Prop where
  host : s.host = []
  phase : s.phase = .encHeader

theorem WritesHeader.step_eq {s : State} (h : WritesHeader s) : step s = .next (encHeaderStep s) := by
  rw [step_silent h.host, blockStep, h.phase]

/-- The header bytes of the options in the registers (R88). -/
def optionBytes (s : State) : List Byte := headerBytes s.width s.height s.channels s.colorspace

/-- The state after the first `j` header bytes have been accepted. -/
def headerWritten (s : State) (sink : List OutAnswer) (j : Nat) : State :=
  { s with byteSink := sink, opos := j, written := s.written ++ (optionBytes s).take j }

/-- Header byte `j` is accepted (R88, R105). -/
theorem step_headerWritten {s : State} {sink : List OutAnswer} {j : Nat} (h : WritesHeader s) (hj : j < headerLength) :
    step (headerWritten s (.ok :: sink) j) = .next (headerByteWritten (headerWritten s sink (j + 1))) := by
  have hlen : j < (optionBytes s).length := hj
  have htake : (optionBytes s).take (j + 1) = (optionBytes s).take j ++ [(optionBytes s).getD j 0] := by
    rw [List.take_add_one, List.getElem?_eq_getElem hlen, List.getD_eq_getElem _ _ hlen, Option.toList_some]
  rw [headerWritten, headerWritten, htake, ← List.append_assoc]
  exact WritesHeader.step_eq ⟨h.host, h.phase⟩

/-- The bytes before the last one leave the block writing its header. -/
theorem run_headerWritten {s : State} (h : WritesHeader s) (hopos : s.opos = 0) {j : Nat} (hj : j < headerLength)
    {sink : List OutAnswer} (hs : s.byteSink = List.replicate j .ok ++ sink) : runs j s (headerWritten s sink j) := by
  induction j generalizing sink with
  | zero =>
    have hsink : s.byteSink = sink := hs
    have hsame : headerWritten s sink 0 = s := by
      rw [headerWritten, List.take_zero, List.append_nil, ← hsink, ← hopos]
    rw [hsame]
    exact run_zero s
  | succ j ih =>
    rw [List.replicate_succ', List.append_assoc] at hs
    have hstep := step_headerWritten (sink := sink) h (Nat.lt_of_succ_lt hj)
    have hmore : (headerWritten s sink (j + 1)).opos < headerLength := hj
    rw [headerByteWritten, if_pos hmore] at hstep
    exact run_trans (ih (Nat.lt_of_succ_lt hj) hs) (run_one hstep)

/-- Settles O30: thirteen bytes by induction, the last one with the start of the chunk phase; a refused byte ends the
step in `raiseIo`. -/
theorem headerBytesAreWrittenInOrder : Obligations.HeaderBytesAreWrittenInOrder := by
  intro s sink hhost hphase hopos byteAt header
  have hwrites : WritesHeader s := ⟨hhost, hphase⟩
  have hheader : optionBytes s = header := by
    simp only [optionBytes, headerBytes, extractLsb'_eight]
    rfl
  rw [← hheader]
  refine ⟨fun hs => ?_, fun j e hj hs => ?_⟩
  · have hbefore := run_headerWritten hwrites hopos (j := 13) (sink := .ok :: sink) (by decide) hs
    exact run_trans hbefore (run_one (step_headerWritten hwrites (by decide)))
  · have hbefore := run_headerWritten hwrites hopos hj hs
    have hstep : step (headerWritten s (.ioErr e :: sink) j) = .next (raiseIo e j (headerWritten s sink j)) :=
      WritesHeader.step_eq ⟨hhost, hphase⟩
    exact run_trans hbefore (run_one hstep)

end Sys2Proof.Machine
end

section
/-! PROOFS. CHANNELS and COLORSPACE after the header: the block's operations neither read nor write them (R89, R99,
R120). -/

namespace Sys2Proof.Machine

open Sys2Proof.Statements

/-- The state with other values in CHANNELS and COLORSPACE. -/
def withFormat (c f : Byte) (s : State) : State := { s with channels := c, colorspace := f }

/-- What became of a byte request, in the states that `g` makes of the two. -/
def ReadResult.map (g : State → State) : ReadResult → ReadResult
  | .byte b s => .byte b (g s)
  | .stop s => .stop (g s)

/-- What became of a sequence of writes, in the states that `g` makes of the two. -/
def Xfer.map (g : State → State) : Xfer → Xfer
  | .ok s => .ok (g s)
  | .stop s => .stop (g s)

/-- What became of fetching a chunk, in the states that `g` makes of the two. -/
def FetchResult.map (g : State → State) : FetchResult → FetchResult
  | .ready s => .ready (g s)
  | .stop s => .stop (g s)

/-- The outcome of a step, in the state that `g` makes of the next one. -/
def mapNext (g : State → State) : Host.Outcome State Fault Refusal → Host.Outcome State Fault Refusal
  | .next s => .next (g s)
  | .fault r => .fault r
  | .refused r => .refused r

/-- A transfer and what goes on after it commute with `g` when what goes on does. -/
theorem Xfer.andThen_map (g h : State → State) (hcomm : ∀ s, h (g s) = g (h s)) (x : Xfer) :
    (x.map g).andThen h = g (x.andThen h) := by
  cases x with
  | ok s => exact hcomm s
  | stop s => rfl

variable (c f : Byte)

/-! ### Channel transfers -/

theorem readByte_withFormat (s : State) : readByte (withFormat c f s) = (readByte s).map (withFormat c f) := by
  have hin : (withFormat c f s).input = s.input := rfl
  unfold readByte
  rw [hin]
  rcases s.input with _ | ⟨_ | _ | _ | _, rest⟩ <;> rfl

theorem writeByte_withFormat (b : Byte) (s : State) :
    writeByte b (withFormat c f s) = (writeByte b s).map (withFormat c f) := by
  have hout : (withFormat c f s).byteSink = s.byteSink := rfl
  unfold writeByte
  rw [hout]
  rcases s.byteSink with _ | ⟨_ | _ | _, rest⟩ <;> rfl

theorem writeScratch_withFormat (bytes : List Byte) (s : State) :
    writeScratch bytes (withFormat c f s) = (writeScratch bytes s).map (withFormat c f) := by
  induction bytes generalizing s with
  | nil => rfl
  | cons b bytes ih =>
    rw [writeScratch, writeScratch, writeByte_withFormat]
    rcases writeByte b s with t | t
    · exact ih { t with scratch := bytes }
    · rfl

theorem emitPixel_withFormat (s : State) : emitPixel (withFormat c f s) = withFormat c f (emitPixel s) := by
  have hout : (withFormat c f s).pixelSink = s.pixelSink := rfl
  unfold emitPixel
  rw [hout]
  rcases s.pixelSink with _ | ⟨_ | _, rest⟩ <;> rfl

/-! ### The decoder -/

theorem fetchBytes_withFormat (fuel : Nat) (s : State) :
    fetchBytes fuel (withFormat c f s) = (fetchBytes fuel s).map (withFormat c f) := by
  induction fuel generalizing s with
  | zero => rfl
  | succ fuel ih =>
    have hscratch : (withFormat c f s).scratch = s.scratch := rfl
    rw [fetchBytes, fetchBytes, readByte_withFormat, hscratch]
    split
    · rfl
    · rcases readByte s with ⟨b, t⟩ | t
      · exact ih { t with scratch := s.scratch ++ [b] }
      · rfl

theorem fetchChunk_withFormat (s : State) :
    fetchChunk (withFormat c f s) = (fetchChunk s).map (withFormat c f) := fetchBytes_withFormat c f 6 s

/-- No chunk reads or writes the format bytes (R99). -/
theorem exec_withFormat (i : Instr) (s : State) : exec i (withFormat c f s) = mapNext (withFormat c f) (exec i s) := by
  cases i <;> rfl

theorem thenEmit_withFormat (r : Host.Outcome State Fault Refusal) :
    thenEmit (mapNext (withFormat c f) r) = mapNext (withFormat c f) (thenEmit r) := by
  cases r with
  | next s => exact congrArg Host.Outcome.next (emitPixel_withFormat c f s)
  | fault | refused => rfl

theorem execScratch_withFormat (s : State) :
    execScratch (withFormat c f s) = mapNext (withFormat c f) (execScratch s) := by
  have hscratch : (withFormat c f s).scratch = s.scratch := rfl
  unfold execScratch
  rw [hscratch]
  cases decode s.scratch with
  | ok i rest =>
    dsimp only
    rw [exec_withFormat, thenEmit_withFormat]
  | reject => rfl

theorem decChunksStep_withFormat (s : State) :
    decChunksStep (withFormat c f s) = mapNext (withFormat c f) (decChunksStep s) := by
  have hoffer : (withFormat c f s).offer = s.offer := rfl
  have hrun : (withFormat c f s).run = s.run := rfl
  unfold decChunksStep
  rw [hoffer, hrun]
  split
  · exact congrArg Host.Outcome.next (emitPixel_withFormat c f s)
  · split
    · exact congrArg Host.Outcome.next (emitPixel_withFormat c f (runContinue s))
    · rw [fetchChunk_withFormat]
      rcases fetchChunk s with t | t
      · exact execScratch_withFormat c f t
      · rfl

theorem decEndStep_withFormat (s : State) : decEndStep (withFormat c f s) = withFormat c f (decEndStep s) := by
  have hmark : (withFormat c f s).markAt = s.markAt := rfl
  unfold decEndStep
  rw [readByte_withFormat, hmark]
  rcases readByte s with ⟨b, t⟩ | t
  · dsimp only [ReadResult.map]
    split <;> rfl
  · rfl

/-! ### The encoder -/

theorem emitRun_withFormat (s : State) : emitRun (withFormat c f s) = (emitRun s).map (withFormat c f) := by
  have hscratch : (withFormat c f s).scratch = s.scratch := rfl
  unfold emitRun
  rw [hscratch, writeScratch_withFormat]
  rcases writeScratch s.scratch s with t | t <;> rfl

theorem continueChunk_withFormat (p : Pixel) (s : State) :
    continueChunk p (withFormat c f s) = withFormat c f (continueChunk p s) := by
  have hscratch : (withFormat c f s).scratch = s.scratch := rfl
  unfold continueChunk
  rw [hscratch, writeScratch_withFormat]
  exact Xfer.andThen_map (withFormat c f) (fun t => pixelEncoded (writePixel p t)) (fun _ => rfl) _

/-- The choice of a chunk does not look at the format bytes (R120). -/
theorem beginChunk_withFormat (p : Pixel) (s : State) :
    beginChunk p (withFormat c f s) = withFormat c f (beginChunk p s) := 
  continueChunk_withFormat c f p { s with scratch := encode (selectChunk s.prev s.cache p) }

theorem resumePixel_withFormat (p : Pixel) (s : State) :
    resumePixel p (withFormat c f s) = withFormat c f (resumePixel p s) := by
  have hprev : (withFormat c f s).prev = s.prev := rfl
  have hrun : (withFormat c f s).run = s.run := rfl
  unfold resumePixel
  rw [hprev, hrun, emitRun_withFormat]
  split
  · exact Xfer.andThen_map (withFormat c f) pixelEncoded (fun _ => rfl) _
  · split
    · exact Xfer.andThen_map (withFormat c f) (beginChunk p) (beginChunk_withFormat c f p) _
    · exact continueChunk_withFormat c f p s

theorem takePixel_withFormat (p : Pixel) (s : State) :
    takePixel p (withFormat c f s) = withFormat c f (takePixel p s) := by
  have hprev : (withFormat c f s).prev = s.prev := rfl
  have hrun : (withFormat c f s).run = s.run := rfl
  have hk : (withFormat c f s).k = s.k := rfl
  have hnpix : (withFormat c f s).npix = s.npix := rfl
  unfold takePixel
  dsimp only
  rw [hprev, hrun, hk, hnpix]
  split_ifs
  · exact resumePixel_withFormat c f p (loadRun { s with cur := some p, run := s.run + 1 })
  · rfl
  · exact resumePixel_withFormat c f p (loadRun { s with cur := some p })
  · exact beginChunk_withFormat c f p { s with cur := some p }

theorem encChunksStep_withFormat (s : State) : encChunksStep (withFormat c f s) = withFormat c f (encChunksStep s) := by
  have hcur : (withFormat c f s).cur = s.cur := rfl
  have hsource : (withFormat c f s).pixelSource = s.pixelSource := rfl
  unfold encChunksStep nextPixel
  rw [hcur, hsource]
  rcases s.cur with _ | p
  · rcases s.pixelSource with _ | ⟨p | _, rest⟩
    · rfl
    · exact takePixel_withFormat c f p { s with pixelSource := rest }
    · rfl
  · exact resumePixel_withFormat c f p s

theorem encEndStep_withFormat (s : State) : encEndStep (withFormat c f s) = withFormat c f (encEndStep s) := by
  have hmark : (withFormat c f s).markAt = s.markAt := rfl
  unfold encEndStep
  rw [hmark, writeByte_withFormat]
  exact Xfer.andThen_map (withFormat c f) markDone (fun _ => rfl) _

/-! ### The block -/

/-- In the streaming phases a step of the block commutes with other format bytes. -/
theorem blockStep_withFormat {s : State} (h : s.phase.Streaming) :
    blockStep (withFormat c f s) = mapNext (withFormat c f) (blockStep s) := by
  have hphase : (withFormat c f s).phase = s.phase := rfl
  unfold blockStep
  rw [hphase]
  rcases h with h | h | h | h <;> rw [h]
  · exact decChunksStep_withFormat c f s
  · exact congrArg Host.Outcome.next (decEndStep_withFormat c f s)
  · exact congrArg Host.Outcome.next (encChunksStep_withFormat c f s)
  · exact congrArg Host.Outcome.next (encEndStep_withFormat c f s)

/-- Settles O47: a step of the block commutes with other format bytes. -/
theorem formatBytesDoNotChangeTheStream : Obligations.FormatBytesDoNotChangeTheStream := by
  intro s t c f hhost hphase hstep
  have hother : step (withFormat c f s) = blockStep (withFormat c f s) := step_silent hhost
  rw [step_silent hhost] at hstep
  rw [blockStep_withFormat c f hphase, hstep] at hother
  exact hother

end Sys2Proof.Machine
end

section
/-! PROOFS. The moves of the decoder with the bytes they read: one inversion for each of its three phases (R79, R90,
R100). -/

namespace Sys2Proof.Machine

open Sys2Proof.Statements

/-! ### Reads that are not served -/

/-- An error has been raised in state `u` (R128). -/
inductive Raised (u : State) : State → Prop
  | plain (code : ErrCode) (offset : Nat) (info : Word64) : Raised u (raise code offset info u)
  | transport (e : Config.IoErrT) (offset : Nat) : Raised u (raiseIo e offset u)

theorem Raised.phase {u t : State} (h : Raised u t) : t.phase = .error := by
  cases h <;> rfl

/-- A byte request that delivers no byte: the channel is not ready, or it ends the operation (R41). -/
inductive ReadStops (s : State) : State → Prop
  | waits (rest : List InAnswer) (silent : s.input = [] ∨ .wait ∈ s.input) : ReadStops s { s with input := rest }
  | fails {t : State} (rest : List InAnswer) (raised : Raised { s with input := rest } t) : ReadStops s t

/-- A byte request delivers the next byte or stops the step. -/
theorem readByte_serves_or_stops (s : State) :
    (∃ b rest, s.input = .byte b :: rest ∧ readByte s = .byte b { s with input := rest, pos := s.pos + 1 }) ∨
    ∃ t, readByte s = .stop t ∧ ReadStops s t := by
  rcases readByte_cases s with ⟨hi, hr⟩ | ⟨rest, hi, hr⟩ | ⟨b, rest, hi, hr⟩ | ⟨rest, -, hr⟩ | ⟨e, rest, -, hr⟩
  · exact .inr ⟨s, hr, .waits s.input (.inl hi)⟩
  · exact .inr ⟨_, hr, .waits rest (.inr (by simp [hi]))⟩
  · exact .inl ⟨b, rest, hi, hr⟩
  · exact .inr ⟨_, hr, .fails rest (.plain _ _ _)⟩
  · exact .inr ⟨_, hr, .fails rest (.transport _ _)⟩

/-! ### The header -/

/-- How many bytes of a field have gathered before the byte at offset `o` is read (R79). -/
def gathered (o : Nat) : Nat := if o < 12 then o % 4 else 0

/-- What the header byte at offset `o` does (R79 to R87). -/
inductive HeaderByte (o : Nat) (s : State) : State → Prop
  /-- A byte of a field, or the last one of a good field before COLORSPACE. -/
  | field (left : List Byte) (w h : Word64) (c : Byte) (more : o < 13) (scratch : left.length = gathered (o + 1)) :
      HeaderByte o s { s with scratch := left, width := w, height := h, channels := c }
  /-- The last byte of a DECODE_CONFIG (R86). -/
  | config (f : Byte) (n : Nat) (op : s.op = .decodeConfig) :
      HeaderByte o s { s with colorspace := f, npix := n, phase := .done }
  /-- The last byte of a DECODE's header (R84, R90). -/
  | stream (f : Byte) (n : Nat) (last : o = 13) (scratch : s.scratch = []) (positive : 0 < n)
      (limit : n ≤ s.maxPixels) :
      HeaderByte o s { initStream s with colorspace := f, npix := n, phase := .decChunks }
  /-- A check that fails (R80, R82 to R84). -/
  | fails {t : State} (left : List Byte) (c f : Byte) (small : left.length ≤ 5)
      (raised : Raised { s with scratch := left, channels := c, colorspace := f } t) : HeaderByte o s t

theorem takeMagic_headerByte (m : BitVec 32) (s : State) : HeaderByte 3 s (takeMagic m { s with scratch := [] }) := by
  unfold takeMagic
  split
  · exact .field [] s.width s.height s.channels (by decide) rfl
  · exact .fails [] s.channels s.colorspace (by decide) (.plain _ _ _)

theorem takeChannels_headerByte (b : Byte) {s : State} (hs : s.scratch = []) :
    HeaderByte 12 s (takeChannels b s) := by
  unfold takeChannels
  split
  · exact .field s.scratch s.width s.height b (by decide) (by rw [hs]; rfl)
  · exact .fails s.scratch b s.colorspace (by simp [hs]) (.plain _ _ _)

theorem headerComplete_headerByte (f : Byte) {s : State} (hs : s.scratch = []) :
    HeaderByte 13 s (headerComplete { s with colorspace := f }) := by
  by_cases hm : decodeGeometryMask s.maxPixels s.width.toNat s.height.toNat = 0
  · by_cases hop : s.op = .decodeConfig
    · rw [headerComplete_config (s := { s with colorspace := f }) hm hop]
      exact .config f _ hop
    · obtain ⟨hw, hh, hlimit⟩ := decodeGeometryMask_eq_zero hm
      rw [headerComplete_stream (s := { s with colorspace := f }) hm hop]
      exact .stream f _ rfl hs (Nat.mul_pos hw hh) hlimit
  · rw [headerComplete_bad (s := { s with colorspace := f }) hm]
    exact .fails s.scratch s.channels f (by simp [hs]) (.plain _ _ _)

theorem takeColorspace_headerByte (b : Byte) {s : State} (hs : s.scratch = []) :
    HeaderByte 13 s (takeColorspace b s) := by
  unfold takeColorspace
  split
  · exact headerComplete_headerByte b hs
  · exact .fails s.scratch s.channels b (by simp [hs]) (.plain _ _ _)

theorem takeHeaderByte_headerByte {o : Nat} (b : Byte) {s : State} (ho : o < 14) (hs : s.scratch.length = gathered o) :
    HeaderByte o s (takeHeaderByte o b s) := by
  unfold takeHeaderByte
  dsimp only
  split_ifs with h3 h7 h11 h12 h13
  · subst h3
    exact takeMagic_headerByte _ s
  · subst h7
    exact .field [] _ s.height s.channels (by decide) rfl
  · subst h11
    exact .field [] s.width _ s.channels (by decide) rfl
  · subst h12
    exact takeChannels_headerByte b (List.length_eq_zero_iff.mp hs)
  · subst h13
    exact takeColorspace_headerByte b (List.length_eq_zero_iff.mp hs)
  · refine .field _ s.width s.height s.channels (by omega) ?_
    unfold gathered at hs ⊢
    rw [List.length_append, List.length_singleton, hs]
    split_ifs <;> omega

/-! ### The chunks -/

/-- Every chunk ends with a pixel offered and its bytes used up; beside those it changes `prev`, the cache and the run
(R91, R93 to R98). -/
theorem exec_frame (i : Instr) (s : State) :
    ∃ t, exec i s = .next t ∧
      t = { s with prev := t.prev, cache := t.cache, run := t.run, scratch := [], offer := true } := by
  cases i <;> exact ⟨_, rfl, rfl⟩

theorem execScratch_frame {u : State} (hc : chunkComplete u.scratch = true) :
    ∃ v, execScratch u = .next (emitPixel v) ∧
      v = { u with prev := v.prev, cache := v.cache, run := v.run, scratch := [], offer := true } := by
  obtain ⟨i, rest, hd⟩ := decode_of_chunkComplete hc
  obtain ⟨v, hv, hframe⟩ := exec_frame i u
  exact ⟨v, by simp only [execScratch, hd, hv, thenEmit], hframe⟩

/-- What a step of PHASE DEC_CHUNKS does, with the bytes `bytes` it reads (R90, R91). -/
inductive ChunkStep (s : State) : State → Prop
  /-- The Advance has its pixel, and the sink is asked. -/
  | pixel {v : State} (bytes : List Byte) (rest : List InAnswer) (input : s.input = bytes.map .byte ++ rest)
      (short : s.scratch.length + bytes.length ≤ 5) (offered : s.offer = true → bytes = [])
      (pos : v.pos = s.pos + bytes.length)
      (frame : v = { s with
        input := rest, pos := v.pos, prev := v.prev, cache := v.cache, run := v.run, scratch := [], offer := true }) :
      ChunkStep s (emitPixel v)
  /-- The chunk is not all there yet. -/
  | waits (bytes : List Byte) (rest : List InAnswer) (offer : s.offer = false) (run : s.run = 0)
      (unfinished : chunkComplete (s.scratch ++ bytes) = false) (silent : s.input = bytes.map .byte ∨ .wait ∈ s.input) :
      ChunkStep s (fetched s bytes rest)
  /-- The channel ends or fails inside the chunk. -/
  | fails {t : State} (bytes : List Byte) (rest : List InAnswer) (offer : s.offer = false) (run : s.run = 0)
      (unfinished : chunkComplete (s.scratch ++ bytes) = false) (raised : Raised (fetched s bytes rest) t) :
      ChunkStep s t

theorem length_le_four_of_unfinished {scratch : List Byte} (h : chunkComplete scratch = false) :
    scratch.length ≤ 4 := by
  by_contra hlong
  rw [chunkComplete_of_five (by omega)] at h
  cases h

/-- A fetch reads at most five bytes, with those already there (R72). -/
theorem length_le_five_of_prefixes {scratch bytes : List Byte} (hs : scratch.length ≤ 5)
    (h : ∀ j < bytes.length, chunkComplete (scratch ++ bytes.take j) = false) : scratch.length + bytes.length ≤ 5 := by
  rcases Nat.eq_zero_or_pos bytes.length with h0 | hpos
  · omega
  · have hlast := length_le_four_of_unfinished (h (bytes.length - 1) (by omega))
    rw [List.length_append, List.length_take] at hlast
    omega

theorem decChunksStep_chunkStep {s : State} (hc : chunkComplete s.scratch = false)
    (hs : s.offer = true ∨ s.run ≠ 0 → s.scratch = []) : ∃ t, decChunksStep s = .next t ∧ ChunkStep s t := by
  unfold decChunksStep
  split
  · next ho =>
    have hscratch := hs (.inl ho)
    exact ⟨_, rfl, .pixel [] s.input rfl (by simp [hscratch]) (fun _ => rfl) rfl (by rw [← ho, ← hscratch])⟩
  · next ho =>
    rw [Bool.not_eq_true] at ho
    split
    · next hr =>
      have hscratch := hs (.inr hr)
      exact ⟨_, rfl, .pixel [] s.input rfl (by simp [hscratch]) (fun _ => rfl) rfl (by rw [← hscratch]; rfl)⟩
    · next hr =>
      rw [not_not] at hr
      have hfour := length_le_four_of_unfinished hc
      obtain ⟨bytes, hprefix, h⟩ := fetchBytes_cases 6 s (by decide) (by omega)
      have hshort := length_le_five_of_prefixes (by omega) hprefix
      unfold fetchChunk
      rcases h with ⟨rest, hi, hcomplete, hf⟩ |
        ⟨hpart, ⟨hi, hf⟩ | ⟨rest, hi, hf⟩ | ⟨rest, -, hf⟩ | ⟨e, rest, -, hf⟩⟩ <;> rw [hf]
      · obtain ⟨v, hv, hframe⟩ := execScratch_frame (u := fetched s bytes rest) hcomplete
        exact ⟨_, hv, .pixel bytes rest hi hshort (by simp [ho]) (by rw [hframe]; rfl)
          (by rw [hframe]; rfl)⟩
      · exact ⟨_, rfl, .waits bytes [] ho hr hpart (.inl hi)⟩
      · exact ⟨_, rfl, .waits bytes rest ho hr hpart (.inr (by simp [hi]))⟩
      · exact ⟨_, rfl, .fails bytes rest ho hr hpart (.plain _ _ _)⟩
      · exact ⟨_, rfl, .fails bytes rest ho hr hpart (.transport _ _)⟩

end Sys2Proof.Machine
end

section
/-! PROOFS. What the scratch holds, and how far the streams have moved, phase by phase (R24, R90, R124). -/

namespace Sys2Proof.Machine

/-! ### The framing invariant by phases -/

/-- A RUN chunk is in the scratch: that of the run `p` ends, or the one before the chunk of `p` (R109, R110). -/
structure RunPending (p : Pixel) (s : State) : Prop where
  scratch : s.scratch = encRun s.run.toNat
  run : s.run ≠ 0
  opos : s.opos + 5 * s.run.toNat ≤ (if p = s.prev then 19 else 14) + 5 * s.k

/-- What is left of the chunk of `p` is in the scratch (R117). -/
structure ChunkPending (p : Pixel) (s : State) : Prop where
  differs : p ≠ s.prev
  run : s.run = 0
  scratch : s.scratch ≠ []
  small : s.scratch.length ≤ 5
  opos : s.opos + s.scratch.length ≤ 19 + 5 * s.k

/-- What `FramingInv` says in each phase, beside the bounds of every phase. -/
def FramingAt (s : State) : Phase → Prop
  | .decHeader => s.scratch.length = gathered s.pos
  | .decChunks =>
    (chunkComplete s.scratch = false ∧ (s.offer = true ∨ s.run ≠ 0 → s.scratch = [])) ∧
      s.pos ≤ 14 + 5 * s.k + s.scratch.length + (if s.offer then 5 else 0)
  | .decEnd => s.scratch = [] ∧ s.pos ≤ 14 + 5 * s.npix + s.markAt
  | .encHeader => s.scratch = []
  | .encChunks =>
    (s.cur = none → s.scratch = [] ∧ s.opos + 5 * s.run.toNat ≤ 14 + 5 * s.k) ∧
      ∀ p, s.cur = some p → RunPending p s ∨ ChunkPending p s
  | .encEnd => s.scratch = [] ∧ s.opos ≤ 14 + 5 * s.npix + s.markAt
  | .idle | .done | .error => True

/-- The bounds of every phase: the scratch is no longer than a chunk, no stream is longer than its image allows, and
MAX_PIXELS is legal (R24, R90, R124, R7). -/
structure StreamsBounded (s : State) : Prop where
  small : s.scratch.length ≤ 5
  decoded : s.op = .decode ∨ s.op = .decodeConfig → s.pos ≤ 22 + 5 * s.npix
  encoded : s.op = .encode → s.opos ≤ 22 + 5 * s.npix
  limit : LimitInv s

/-- The two invariants that are about lengths. -/
structure Framed (s : State) : Prop extends FramingInv s where
  limit : LimitInv s

theorem Framed.bounded {s : State} (h : Framed s) : StreamsBounded s := ⟨h.small, h.decLimit, h.encLimit, h.limit⟩

/-- A decoder writes nothing, so only its input counts. -/
theorem streamsBounded_decoding {s : State} (hlimit : LimitInv s) (hop : s.op ≠ .encode) (hs : s.scratch.length ≤ 5)
    (hpos : s.pos ≤ 22 + 5 * s.npix) : StreamsBounded s := ⟨hs, fun _ => hpos, fun h => absurd h hop, hlimit⟩

/-- An encoder reads nothing, so only its output counts. -/
theorem streamsBounded_encoding {s : State} (hlimit : LimitInv s) (hop : s.op = .encode) (hs : s.scratch.length ≤ 5)
    (hopos : s.opos ≤ 22 + 5 * s.npix) : StreamsBounded s := ⟨hs, by simp [hop], fun _ => hopos, hlimit⟩

/-- The clause of `FramingInv` on what the scratch holds of a pixel in flight. -/
def HoldsItsBytes (p : Pixel) (s : State) : Prop :=
  s.scratch ≠ [] ∧ (p = s.prev ∨ s.run ≠ 0 → s.scratch = encRun s.run.toNat)

/-- The clause of `FramingInv` on how far the output has moved with a pixel in flight. -/
def WithinItsBytes (p : Pixel) (s : State) : Prop :=
  if p = s.prev then s.run ≠ 0 ∧ s.opos + 5 * s.run.toNat ≤ 19 + 5 * s.k
  else if s.run = 0 then s.opos + s.scratch.length ≤ 19 + 5 * s.k
  else s.opos + 5 * s.run.toNat ≤ 14 + 5 * s.k

/-- The two clauses leave a pixel in flight two ways to be: with a RUN chunk to write, or with its own. -/
theorem runPending_or_chunkPending {s : State} {p : Pixel} (hsmall : s.scratch.length ≤ 5) (hholds : HoldsItsBytes p s)
    (hflight : WithinItsBytes p s) : RunPending p s ∨ ChunkPending p s := by
  obtain ⟨hne, hrunChunk⟩ := hholds
  unfold WithinItsBytes at hflight
  by_cases heq : p = s.prev
  · rw [if_pos heq] at hflight
    obtain ⟨hrun, hopos⟩ := hflight
    exact .inl ⟨hrunChunk (.inl heq), hrun, by rwa [if_pos heq]⟩
  · rw [if_neg heq] at hflight
    by_cases hrun : s.run = 0
    · rw [if_pos hrun] at hflight
      exact .inr ⟨heq, hrun, hne, hsmall, hflight⟩
    · rw [if_neg hrun] at hflight
      exact .inl ⟨hrunChunk (.inr hrun), hrun, by rwa [if_neg heq]⟩

theorem FramingInv.at {s : State} {p : Phase} (h : FramingInv s) (hp : s.phase = p) : FramingAt s p := by
  cases p with
  | idle | done | error => trivial
  | decHeader => exact h.header hp
  | decChunks => exact ⟨h.chunk hp, h.decPos hp⟩
  | decEnd => exact ⟨h.between (by simp [hp]), h.decEndPos hp⟩
  | encHeader => exact h.between (by simp [hp])
  | encChunks => exact ⟨fun hc => ⟨h.encoder hp hc, h.encOpos hp hc⟩, fun p hc =>
    runPending_or_chunkPending h.small (h.writing p hp hc) (h.encFlight p hp hc)⟩
  | encEnd => exact ⟨h.between (by simp [hp]), h.encEndOpos hp⟩

theorem RunPending.writing {p : Pixel} {s : State} (h : RunPending p s) : HoldsItsBytes p s :=
  ⟨by simp [h.scratch, encRun], fun _ => h.scratch⟩

theorem RunPending.flight {p : Pixel} {s : State} (h : RunPending p s) : WithinItsBytes p s := by
  unfold WithinItsBytes
  have hopos := h.opos
  split
  · next heq => exact ⟨h.run, by rwa [if_pos heq] at hopos⟩
  · next hne => rwa [if_neg h.run, ← if_neg (c := p = s.prev) (t := 19) (e := 14) hne]

theorem ChunkPending.writing {p : Pixel} {s : State} (h : ChunkPending p s) : HoldsItsBytes p s :=
  ⟨h.scratch, fun hor => (hor.elim h.differs (absurd h.run)).elim⟩

theorem ChunkPending.flight {p : Pixel} {s : State} (h : ChunkPending p s) : WithinItsBytes p s := by
  unfold WithinItsBytes
  rw [if_neg h.differs, if_pos h.run]
  exact h.opos

theorem framed_of_at {s : State} {p : Phase} (hp : s.phase = p) (hb : StreamsBounded s) (h : FramingAt s p) :
    Framed s where
  limit := hb.limit
  small := hb.small
  decLimit := hb.decoded
  encLimit := hb.encoded
  header hq := by
    cases hp.symm.trans hq
    exact h
  chunk hq := by
    cases hp.symm.trans hq
    exact h.1
  between hq := by
    rcases hq with hq | hq | hq <;> cases hp.symm.trans hq
    · exact h
    · exact h.1
    · exact h.1
  encoder hq hc := by
    cases hp.symm.trans hq
    exact (h.1 hc).1
  writing p hq hc := by
    cases hp.symm.trans hq
    exact (h.2 p hc).elim (·.writing) (·.writing)
  decPos hq := by
    cases hp.symm.trans hq
    exact h.2
  decEndPos hq := by
    cases hp.symm.trans hq
    exact h.2
  encOpos hq hc := by
    cases hp.symm.trans hq
    exact (h.1 hc).2
  encFlight p hq hc := by
    cases hp.symm.trans hq
    exact (h.2 p hc).elim (·.flight) (·.flight)
  encEndOpos hq := by
    cases hp.symm.trans hq
    exact h.2

/-- What `Framed` reads of a state. -/
def framingFields (s : State) :=
  (s.phase, s.op, s.scratch, s.pos, s.opos, s.k, s.npix, s.offer, s.run, s.cur, s.prev, s.markAt, s.maxPixels)

theorem Framed.congr {s t : State} (h : Framed s) (heq : framingFields t = framingFields s) : Framed t := by
  cases s
  cases t
  simp only [framingFields, Prod.mk.injEq] at heq
  obtain ⟨rfl, rfl, rfl, rfl, rfl, rfl, rfl, rfl, rfl, rfl, rfl, rfl, rfl⟩ := heq
  obtain ⟨⟨small, header, chunk, between, encoder, writing, decPos, decEndPos, decLimit, encOpos, encFlight, encEndOpos,
    encLimit⟩, limit⟩ := h
  exact ⟨⟨small, header, chunk, between, encoder, writing, decPos, decEndPos, decLimit, encOpos, encFlight, encEndOpos,
    encLimit⟩, limit⟩

theorem StreamsBounded.congr {s t : State} (h : StreamsBounded s) (hs : t.scratch = s.scratch) (hop : t.op = s.op)
    (hpos : t.pos = s.pos) (hopos : t.opos = s.opos) (hn : t.npix = s.npix) (hm : t.maxPixels = s.maxPixels) :
    StreamsBounded t where
  small := by rw [hs]; exact h.small
  decoded := by rw [hop, hpos, hn]; exact h.decoded
  encoded := by rw [hop, hopos, hn]; exact h.encoded
  limit := by rw [LimitInv, hm]; exact h.limit

/-- An error keeps the scratch and the counters (R128). -/
theorem Raised.framed {u t : State} (h : Raised u t) (hb : StreamsBounded u) : Framed t := by
  cases h <;> exact framed_of_at rfl (hb.congr rfl rfl rfl rfl rfl rfl) trivial

/-- A read that is not served moves nothing that is counted. -/
theorem ReadStops.framed {s t : State} (h : ReadStops s t) (hs : Framed s) : Framed t := by
  cases h with
  | waits => exact hs.congr rfl
  | fails _ raised => exact raised.framed (hs.bounded.congr rfl rfl rfl rfl rfl rfl)

end Sys2Proof.Machine
end

section
/-! PROOFS. A good state stays good, and so no stream is longer than its image allows (R24, R90, R124). -/

namespace Sys2Proof.Machine

/-! ### Steps of a DECODE -/

/-- The header is 14 bytes, so no limit is reached inside it (R60). -/
theorem streamsBounded_header {s : State} (hlimit : LimitInv s) (hop : s.op = .decode ∨ s.op = .decodeConfig)
    (hs : s.scratch.length ≤ 5) (hpos : s.pos ≤ 14) : StreamsBounded s :=
  streamsBounded_decoding hlimit (by rcases hop with h | h <;> simp [h]) hs (by omega)

theorem gathered_le (o : Nat) : gathered o ≤ 5 := by
  unfold gathered
  split <;> omega

theorem HeaderByte.framed {s t : State} {o : Nat} (h : HeaderByte o s t) (hlimit : LimitInv s)
    (hp : s.phase = .decHeader) (hop : s.op = .decode ∨ s.op = .decodeConfig) (hpos : s.pos = o + 1)
    (ho : o < 14) (hsmall : s.scratch.length ≤ 5) :
    Framed t := by
  have hle : s.pos ≤ 14 := by omega
  cases h with
  | field left w ht c _ hleft =>
    rw [← hpos] at hleft
    exact framed_of_at hp (streamsBounded_header hlimit hop (hleft.trans_le (gathered_le _)) hle) hleft
  | config f n =>
    exact framed_of_at rfl (streamsBounded_header hlimit hop hsmall hle) trivial
  | stream f n _ hs =>
    refine framed_of_at rfl (streamsBounded_header hlimit hop (by simp [hs]) hle)
      ⟨⟨by simp [hs, chunkComplete], fun _ => hs⟩, ?_⟩
    rw [initStream_pos]
    omega
  | fails left c f hleft raised => exact raised.framed (streamsBounded_header hlimit hop hleft hle)

theorem framed_decHeaderStep {s : State} (h : Framed s) (hp : s.phase = .decHeader)
    (hop : s.op = .decode ∨ s.op = .decodeConfig) (hpos : s.pos < 14) : Framed (decHeaderStep s) := by
  unfold decHeaderStep
  rcases readByte_serves_or_stops s with ⟨b, rest, -, hr⟩ | ⟨t, hr, hstop⟩
  · rw [hr]
    exact (takeHeaderByte_headerByte (s := { s with input := rest, pos := s.pos + 1 }) b hpos (h.at hp)).framed
      h.limit hp hop rfl hpos h.small
  · rw [hr]
    exact hstop.framed h

/-- The end marker is eight bytes more than the chunks (R71). -/
theorem framed_markDone {u : State} (hb : StreamsBounded u)
    (h : (u.phase = .decEnd ∧ u.scratch = [] ∧ u.pos ≤ 14 + 5 * u.npix + (u.markAt + 1)) ∨
      (u.phase = .encEnd ∧ u.scratch = [] ∧ u.opos ≤ 14 + 5 * u.npix + (u.markAt + 1))) : Framed (markDone u) := by
  have hbound : StreamsBounded (markDone u) := (hb.congr rfl rfl rfl rfl rfl rfl)
  have hphase := markDone_phase u
  split at hphase
  · rcases h with ⟨hp, hat⟩ | ⟨hp, hat⟩ <;> exact framed_of_at (hphase.trans hp) hbound hat
  · exact framed_of_at hphase hbound trivial

/-- A pixel is with the sink, and its chunk has been used up (R91). -/
structure Offered (v : State) : Prop where
  limit : LimitInv v
  phase : v.phase = .decChunks
  op : v.op = .decode
  scratch : v.scratch = []
  pos : v.pos ≤ 19 + 5 * v.k
  more : v.k < v.npix

theorem Offered.bounded {v : State} (h : Offered v) : StreamsBounded v := by
  have hpos := h.pos
  have hmore := h.more
  exact streamsBounded_decoding h.limit (by simp [h.op]) (by simp [h.scratch]) (by omega)

theorem Offered.waiting {v : State} (h : Offered v) (ho : v.offer = true) : Framed v := by
  have hpos := h.pos
  exact framed_of_at h.phase h.bounded
    ⟨⟨by rw [h.scratch]; rfl, fun _ => h.scratch⟩, by rw [h.scratch, ho, if_pos rfl, List.length_nil]; omega⟩

theorem Offered.accepted {v : State} (h : Offered v) : Framed (pixelAccepted v) := by
  have hb : StreamsBounded (pixelAccepted v) := h.bounded.congr rfl rfl rfl rfl rfl rfl
  have hpos := h.pos
  have hphase := pixelAccepted_phase v
  split at hphase
  · refine framed_of_at (hphase.trans h.phase) hb ⟨⟨by simp [h.scratch, chunkComplete], fun _ => h.scratch⟩, ?_⟩
    simp only [pixelAccepted_pos, pixelAccepted_k]
    omega
  · next hlast =>
    have hmore := h.more
    refine framed_of_at hphase hb ⟨h.scratch, ?_⟩
    simp only [pixelAccepted_pos, pixelAccepted_npix]
    omega

theorem framed_emitPixel {v : State} (h : Offered v) (ho : v.offer = true) : Framed (emitPixel v) := by
  rcases emitPixel_cases v with ⟨-, he⟩ | ⟨rest, -, he⟩ | ⟨rest, -, he⟩ <;> rw [he]
  · exact h.waiting ho
  · exact (h.waiting ho).congr rfl
  · exact Offered.accepted (v := { v with pixelSink := rest }) ⟨h.limit, h.phase, h.op, h.scratch, h.pos, h.more⟩

/-- Part of a chunk has been read: it is in the scratch, so its bytes are counted there (R24). -/
theorem framed_fetched {s : State} {bytes : List Byte} (rest : List InAnswer) (h : Framed s)
    (hp : s.phase = .decChunks) (hop : s.op = .decode) (hk : s.k < s.npix) (ho : s.offer = false) (hr : s.run = 0)
    (hpart : chunkComplete (s.scratch ++ bytes) = false) : Framed (fetched s bytes rest) := by
  obtain ⟨-, hpos⟩ := h.at hp
  have hfour := length_le_four_of_unfinished hpart
  rw [ho, if_neg Bool.false_ne_true] at hpos
  rw [List.length_append] at hfour
  refine framed_of_at (p := .decChunks) hp (streamsBounded_decoding h.limit (by simp [fetched, hop]) ?_ ?_)
    ⟨⟨hpart, by simp [fetched, ho, hr]⟩, ?_⟩
  all_goals
    simp only [fetched, List.length_append]
    omega

theorem framed_decChunksStep {s t : State} (h : Framed s) (hp : s.phase = .decChunks) (hop : s.op = .decode)
    (hk : s.k < s.npix) (hs : decChunksStep s = .next t) : Framed t := by
  obtain ⟨⟨hc, hempty⟩, hpos⟩ := h.at hp
  obtain ⟨u, hu, hstep⟩ := decChunksStep_chunkStep hc hempty
  rw [hu] at hs
  cases hs
  cases hstep with
  | pixel bytes rest _ hshort hnone hvpos hframe =>
    have hoffered : s.pos + bytes.length ≤ 19 + 5 * s.k := by
      by_cases ho : s.offer = true
      · rw [hnone ho, List.length_nil]
        rw [hempty (.inl ho), if_pos ho, List.length_nil] at hpos
        omega
      · rw [if_neg ho] at hpos
        omega
    refine framed_emitPixel ⟨?_, ?_, ?_, ?_, ?_, ?_⟩ ?_
    · rw [hframe]
      exact h.limit
    · rw [hframe]
      exact hp
    · rw [hframe]
      exact hop
    · rw [hframe]
    · rw [hvpos, hframe]
      exact hoffered
    · rw [hframe]
      exact hk
    · rw [hframe]
  | waits bytes rest ho hr hpart => exact framed_fetched rest h hp hop hk ho hr hpart
  | fails bytes rest ho hr hpart raised =>
    exact raised.framed (framed_fetched rest h hp hop hk ho hr hpart).bounded

/-- Byte `markAt` of the end marker is read where it is counted (R102). -/
theorem framed_decEndStep {s : State} (h : Framed s) (hp : s.phase = .decEnd) (hop : s.op = .decode)
    (hm : s.markAt < 8) : Framed (decEndStep s) := by
  obtain ⟨hscratch, hpos⟩ := h.at hp
  unfold decEndStep
  rcases readByte_serves_or_stops s with ⟨b, rest, -, hr⟩ | ⟨t, hr, hstop⟩ <;> simp only [hr]
  · have hb : StreamsBounded { s with input := rest, pos := s.pos + 1 } :=
      streamsBounded_decoding h.limit (by simp [hop]) h.small (by dsimp only; omega)
    split
    · exact framed_markDone (hb.congr rfl rfl rfl rfl rfl rfl) (.inl ⟨hp, hscratch, by dsimp only; omega⟩)
    · exact Raised.framed (.plain _ _ _) hb
  · exact hstop.framed h

/-! ### Steps of an ENCODE -/

/-- A byte write that is not accepted moves nothing that is counted. -/
inductive WriteStops (s : State) : State → Prop
  | waits (rest : List OutAnswer) : WriteStops s { s with byteSink := rest }
  | fails {t : State} (rest : List OutAnswer) (raised : Raised { s with byteSink := rest } t) : WriteStops s t

/-- A byte write is accepted or stops the step. -/
theorem writeByte_accepts_or_stops (b : Byte) (s : State) :
    (∃ rest, writeByte b s = .ok { s with byteSink := rest, opos := s.opos + 1, written := s.written ++ [b] }) ∨
    ∃ t, writeByte b s = .stop t ∧ WriteStops s t := by
  rcases writeByte_cases b s with ⟨-, hw⟩ | ⟨rest, -, hw⟩ | ⟨rest, -, hw⟩ | ⟨e, rest, -, hw⟩
  · exact .inr ⟨s, hw, .waits s.byteSink⟩
  · exact .inr ⟨_, hw, .waits rest⟩
  · exact .inl ⟨rest, hw⟩
  · exact .inr ⟨_, hw, .fails rest (.transport _ _)⟩

theorem WriteStops.framed {s t : State} (h : WriteStops s t) (hs : Framed s) : Framed t := by
  cases h with
  | waits => exact hs.congr rfl
  | fails _ raised => exact raised.framed (hs.bounded.congr rfl rfl rfl rfl rfl rfl)

theorem framed_encHeaderStep {s : State} (h : Framed s) (hp : s.phase = .encHeader) (hop : s.op = .encode)
    (hcur : s.cur = none) (hopos : s.opos < 14) : Framed (encHeaderStep s) := by
  have hscratch : s.scratch = [] := h.at hp
  unfold encHeaderStep
  generalize (headerBytes s.width s.height s.channels s.colorspace).getD s.opos 0 = b
  rcases writeByte_accepts_or_stops b s with ⟨rest, hw⟩ | ⟨t, hw, hstop⟩ <;> rw [hw]
  · have hb : StreamsBounded { s with byteSink := rest, opos := s.opos + 1, written := s.written ++ [b] } :=
      streamsBounded_encoding h.limit hop h.small (by dsimp only; omega)
    rw [Xfer.andThen, headerByteWritten]
    split
    · exact framed_of_at hp hb hscratch
    · refine framed_of_at rfl (hb.congr rfl rfl rfl rfl rfl rfl) ⟨fun _ => ⟨hscratch, ?_⟩, by simp [hcur]⟩
      change s.opos + 1 + 5 * 0 ≤ 14 + 5 * s.k
      omega
  · exact hstop.framed h

theorem framed_encEndStep {s : State} (h : Framed s) (hp : s.phase = .encEnd) (hop : s.op = .encode)
    (hm : s.markAt < 8) : Framed (encEndStep s) := by
  obtain ⟨hscratch, hopos⟩ := h.at hp
  unfold encEndStep
  rcases writeByte_accepts_or_stops (endMarker.getD s.markAt 0) s with ⟨rest, hw⟩ | ⟨t, hw, hstop⟩ <;> rw [hw]
  · exact framed_markDone (streamsBounded_encoding h.limit hop h.small (by dsimp only; omega))
      (.inr ⟨hp, hscratch, by dsimp only; omega⟩)
  · exact hstop.framed h

/-- Pixel `p` is in flight, and it is a pixel of the image (R105). -/
structure Encoding (p : Pixel) (s : State) : Prop where
  limit : LimitInv s
  phase : s.phase = .encChunks
  op : s.op = .encode
  cur : s.cur = some p
  more : s.k < s.npix

theorem framed_runPending {p : Pixel} {s : State} (he : Encoding p s) (h : RunPending p s) : Framed s := by
  have hopos := h.opos
  have hmore := he.more
  have hb : StreamsBounded s := by
    refine streamsBounded_encoding he.limit he.op (by simp [h.scratch, encRun]) ?_
    split at hopos <;> omega
  refine framed_of_at he.phase hb ⟨by simp [he.cur], fun q hq => ?_⟩
  rw [he.cur] at hq
  cases hq
  exact .inl h

theorem framed_chunkPending {p : Pixel} {s : State} (he : Encoding p s) (h : ChunkPending p s) : Framed s := by
  have hopos := h.opos
  have hmore := he.more
  refine framed_of_at he.phase (streamsBounded_encoding he.limit he.op h.small (by omega))
    ⟨by simp [he.cur], fun q hq => ?_⟩
  rw [he.cur] at hq
  cases hq
  exact .inr h

/-- A finished pixel has taken at most five bytes, with those of the run before it (R124). -/
theorem framed_pixelEncoded {u : State} (hp : u.phase = .encChunks) (hop : u.op = .encode) (hk : u.k < u.npix)
    (hlimit : LimitInv u) (hs : u.scratch = []) (hopos : u.opos + 5 * u.run.toNat ≤ 19 + 5 * u.k) :
    Framed (pixelEncoded u) := by
  have hb : StreamsBounded (pixelEncoded u) :=
    streamsBounded_encoding hlimit hop (by simp [hs]) (by rw [pixelEncoded_opos, pixelEncoded_npix]; omega)
  have hphase := pixelEncoded_phase u
  split at hphase
  · refine framed_of_at (hphase.trans hp) hb ⟨fun _ => ⟨hs, ?_⟩, by simp⟩
    simp only [pixelEncoded_opos, pixelEncoded_run, pixelEncoded_k]
    omega
  · refine framed_of_at hphase hb ⟨hs, ?_⟩
    simp only [pixelEncoded_opos, pixelEncoded_npix]
    omega

/-- What is left of the chunk of `p` is written, all of it or up to the byte the sink does not take (R117). -/
theorem framed_continueChunk {p : Pixel} {s : State} (he : Encoding p s) (h : ChunkPending p s) :
    Framed (continueChunk p s) := by
  have hopos := h.opos
  have hsmall := h.small
  have hleft (j : Nat) (hj : j < s.scratch.length) (sink : List OutAnswer) :
      Framed (sent s (s.scratch.take j) (s.scratch.drop j) sink) := by
    refine framed_chunkPending (p := p) ⟨he.limit, he.phase, he.op, he.cur, he.more⟩ ⟨h.differs, h.run, ?_, ?_, ?_⟩
    · exact fun hnil => Nat.not_le.mpr hj (List.drop_eq_nil_iff.mp hnil)
    all_goals
      simp only [sent, List.length_take, List.length_drop]
      omega
  unfold continueChunk
  rcases writeScratch_cases s.scratch s rfl with ⟨sink, -, hw⟩ | ⟨j, hj, ⟨-, hw⟩ | ⟨sink, -, hw⟩ | ⟨e, sink, -, hw⟩⟩ <;>
    rw [hw]
  · refine framed_pixelEncoded he.phase he.op he.more he.limit rfl ?_
    simpa [sent, h.run] using hopos
  · exact hleft j hj []
  · exact hleft j hj sink
  · exact Raised.framed (.transport _ _) (hleft j hj sink).bounded

theorem encode_length_bounds (i : Instr) : 1 ≤ (encode i).length ∧ (encode i).length ≤ 5 := by
  rw [encode_length]
  cases i.kind <;> decide

/-- The chunk of `p` may follow a run that has just been written (R110, R124). -/
theorem framed_beginChunk {p : Pixel} {s : State} (he : Encoding p s) (hdiff : p ≠ s.prev) (hr : s.run = 0)
    (hopos : s.opos ≤ 14 + 5 * s.k) : Framed (beginChunk p s) := by
  obtain ⟨hone, hfive⟩ := encode_length_bounds (selectChunk s.prev s.cache p)
  refine framed_continueChunk ⟨he.limit, he.phase, he.op, he.cur, he.more⟩
    ⟨hdiff, hr, List.ne_nil_of_length_pos hone, hfive, ?_⟩
  dsimp only
  omega

/-- The RUN chunk is written, and then the run is 0, or it stays as it is (R109, R110). -/
theorem framed_emitRun {p : Pixel} {s : State} (he : Encoding p s) (h : RunPending p s) {f : State → State}
    (hf : ∀ sink, Framed (f { sent s (encRun s.run.toNat) [] sink with run := 0 })) :
    Framed ((emitRun s).andThen f) := by
  have hs := framed_runPending he h
  rcases emitRun_cases s h.scratch with ⟨-, hw⟩ | ⟨sink, -, hw⟩ | ⟨sink, -, hw⟩ | ⟨e, sink, -, hw⟩ <;> rw [hw]
  · exact hs
  · exact hs.congr rfl
  · exact hf sink
  · exact Raised.framed (.transport _ _) (hs.bounded.congr rfl rfl rfl rfl rfl rfl)

theorem framed_resumeRun {p : Pixel} {s : State} (he : Encoding p s) (h : RunPending p s) :
    Framed (resumePixel p s) := by
  have hopos := h.opos
  have hrun : s.run.toNat ≠ 0 := fun h0 => h.run (BitVec.eq_of_toNat_eq h0)
  unfold resumePixel
  split
  · next heq =>
    rw [if_pos heq] at hopos
    refine framed_emitRun he h fun sink => framed_pixelEncoded he.phase he.op he.more he.limit rfl ?_
    change s.opos + 1 + 5 * 0 ≤ 19 + 5 * s.k
    omega
  · next hdiff =>
    rw [if_neg hdiff] at hopos
    rw [if_pos h.run]
    refine framed_emitRun he h fun sink =>
      framed_beginChunk ⟨he.limit, he.phase, he.op, he.cur, he.more⟩ hdiff rfl ?_
    change s.opos + 1 ≤ 14 + 5 * s.k
    omega

theorem framed_resumeChunk {p : Pixel} {s : State} (he : Encoding p s) (h : ChunkPending p s) :
    Framed (resumePixel p s) := by
  rw [resumePixel, if_neg h.differs, if_neg (not_not.mpr h.run)]
  exact framed_continueChunk he h

/-- A pixel is taken between two pixels, where nothing is left to write and the run is at most 61 (R107 to R110). -/
theorem framed_takePixel {p : Pixel} {s : State} (he : Encoding p { s with cur := some p }) (hs : s.scratch = [])
    (hrun : s.run.toNat ≤ 61) (hopos : s.opos + 5 * s.run.toNat ≤ 14 + 5 * s.k) : Framed (takePixel p s) := by
  have hsucc := toNat_run_succ hrun
  unfold takePixel
  dsimp only
  split_ifs with heq hflush hr
  · refine framed_resumeRun ⟨he.limit, he.phase, he.op, he.cur, he.more⟩ ⟨rfl, ?_, ?_⟩
    · exact fun h0 => Nat.succ_ne_zero _ (hsucc.symm.trans (congrArg BitVec.toNat h0))
    · change s.opos + 5 * (s.run + 1).toNat ≤ (if p = s.prev then 19 else 14) + 5 * s.k
      rw [if_pos heq, hsucc]
      omega
  · refine framed_pixelEncoded he.phase he.op he.more he.limit hs ?_
    dsimp only
    omega
  · refine framed_resumeRun ⟨he.limit, he.phase, he.op, he.cur, he.more⟩ ⟨rfl, hr, ?_⟩
    simpa [loadRun, heq] using hopos
  · refine framed_beginChunk he heq (not_not.mp hr) ?_
    dsimp only
    omega

theorem framed_encChunksStep {s : State} (h : Framed s) (hp : s.phase = .encChunks) (hop : s.op = .encode)
    (hk : s.k < s.npix) (hrun : s.cur = none → s.run.toNat ≤ 61) : Framed (encChunksStep s) := by
  obtain ⟨hbetween, hflight⟩ := h.at hp
  unfold encChunksStep
  rcases hcur : s.cur with _ | p
  · obtain ⟨hscratch, hopos⟩ := hbetween hcur
    simp only [nextPixel]
    rcases s.pixelSource with _ | ⟨p | _, rest⟩
    · exact h
    · exact framed_takePixel ⟨h.limit, hp, hop, rfl, hk⟩ hscratch (hrun hcur) hopos
    · exact h.congr rfl
  · rcases hflight p hcur with hrunPending | hchunkPending
    · exact framed_resumeRun ⟨h.limit, hp, hop, hcur, hk⟩ hrunPending
    · exact framed_resumeChunk ⟨h.limit, hp, hop, hcur, hk⟩ hchunkPending

/-! ### Every step -/

theorem framed_blockStep {s t : State} (hinv : Inv s) (h : blockStep s = .next t) : Framed t := by
  have hframing : Framed s := ⟨hinv.framing, hinv.limit⟩
  have hcontrol := hinv.control
  have hcount := hinv.count
  unfold blockStep at h
  cases hp : s.phase <;> simp only [hp] at h
  case decChunks =>
    obtain ⟨hop, -⟩ := hcontrol.at hp
    exact framed_decChunksStep hframing hp hop (hcount.at hp) h
  all_goals cases h
  case decHeader =>
    obtain ⟨hop, -⟩ := hcontrol.at hp
    obtain ⟨hpos, -⟩ := hcount.at hp
    exact framed_decHeaderStep hframing hp hop hpos
  case decEnd =>
    obtain ⟨hop, -, -, hm⟩ := hcontrol.at hp
    exact framed_decEndStep hframing hp hop hm
  case encHeader =>
    obtain ⟨hop, -, hcur, -⟩ := hcontrol.at hp
    obtain ⟨hopos, -⟩ := hcount.at hp
    exact framed_encHeaderStep hframing hp hop hcur hopos
  case encChunks =>
    obtain ⟨hop, -⟩ := hcontrol.at hp
    exact framed_encChunksStep hframing hp hop (hcount.at hp) (hinv.run.encoder hp)
  case encEnd =>
    obtain ⟨hop, -, -, hm⟩ := hcontrol.at hp
    exact framed_encEndStep hframing hp hop hm
  case idle | done | error => exact hframing

/-- A start has read and written nothing (R30, R31). -/
theorem streamsBounded_start {s : State} (hlimit : LimitInv s) (hs : s.scratch = []) (hpos : s.pos = 0)
    (hopos : s.opos = 0) : StreamsBounded s := ⟨by simp [hs], by simp [hpos], by simp [hopos], hlimit⟩

/-- No action of the host but a start or a reset moves a stream. -/
theorem framed_host {s t : State} (h : Framed s) (hm : HostMove s t) : Framed t := by
  cases hm with
  | connects | options => exact h.congr rfl
  | startsDecode => exact framed_of_at rfl (streamsBounded_start h.limit rfl rfl rfl) rfl
  | startsEncode => exact framed_of_at rfl (streamsBounded_start h.limit rfl rfl rfl) rfl
  | optionError | resets => exact framed_of_at rfl (streamsBounded_start h.limit rfl rfl rfl) trivial

/-- No invariant is about what the host does next. -/
theorem inv_host_irrelevant {s : State} (h : Inv s) (rest : List HostAction) : Inv { s with host := rest } := by
  have hframed : Framed { s with host := rest } := Framed.congr (s := s) ⟨h.framing, h.limit⟩ rfl
  obtain ⟨hcontrol, hcount, hgeometry⟩ :=
    controlCountGeometry_host_irrelevant s rest ⟨h.control, h.count, h.geometry⟩
  exact ⟨h.cache.congr rfl, h.error.congr (.refl s) .rfl, hcontrol, hcount, hgeometry, h.run.congr rfl rfl rfl,
    hframed.toFramingInv, hframed.limit⟩

theorem framed_step {s t : State} (hinv : Inv s) (h : step s = .next t) : Framed t := by
  unfold step machineStep at h
  split at h
  · exact framed_blockStep hinv h
  · exact framed_blockStep (inv_host_irrelevant hinv _) h
  · next a rest _ _ =>
    cases h
    have hquiet := inv_host_irrelevant hinv rest
    exact framed_host ⟨hquiet.framing, hquiet.limit⟩ (hostAct_moves a _)

/-- Every invariant is kept, each by its own statement. -/
theorem inv_step {s t : State} (hinv : Inv s) (h : step s = .next t) : Inv t := by
  have hframed : Framed t := framed_step hinv h
  obtain ⟨hcontrol, hcount, hgeometry⟩ :=
    phaseAndCountersStayConsistent s t hinv.control hinv.count hinv.geometry h
  exact ⟨cacheSlotsStayConsistent s t hinv.cache h, errorRecordStaysConsistent s t hinv.error h, hcontrol, hcount,
    hgeometry, runCounterStaysInRange s t hinv.count hinv.run h, hframed.toFramingInv, hframed.limit⟩

/-- Settles O54: the invariants of the earlier statements are kept, and the lengths of the streams are bounded by those
of the chunks counted in `k` and of what is in the scratch. -/
theorem goodStatesStayGood : Obligations.GoodStatesStayGood := fun _ _ hinv h =>
  have ht := inv_step hinv h
  ⟨ht, fun hop => ht.framing.decLimit (.inl hop), ht.framing.encLimit⟩

end Sys2Proof.Machine
end

section
/-! PROOFS. What each chunk does in every state: `prev`, the slot of its hash, the run, and nothing else (R93 to
R98). -/

namespace Sys2Proof.Machine

open Sys2Proof.Statements

/-- The slot the block writes is the slot of the hash formula (R34, R37). -/
theorem writesHashSlot_cacheWrite (cache : Vector Pixel 64) (p : Pixel) :
    WritesHashSlot cache (cacheWrite cache p) p := by
  intro j
  simp only [cacheWrite_get, Fin.ext_iff, hash6_val]

/-- A channel update is the mathematical sum mod 256 (R104). -/
theorem movedBy_addDelta (old : Byte) (delta : Int) : MovedBy (addDelta old delta) old delta := by
  rw [MovedBy, addDelta, wrap8, BitVec.toNat_ofInt]
  omega

/-- A chunk that produces pixel `p` completes: `p` becomes `prev` and enters its slot, and the model's scratch and offer
change (R37; log 12, log 13, log 22). -/
theorem writesPixel_frame (p : Pixel) (s : State) :
    WritesHashSlot s.cache (offerPixel (writePixel p s)).cache (offerPixel (writePixel p s)).prev ∧
      offerPixel (writePixel p s) = { s with
        prev := (offerPixel (writePixel p s)).prev, cache := (offerPixel (writePixel p s)).cache, scratch := [],
        offer := true } :=
  ⟨writesHashSlot_cacheWrite s.cache p, rfl⟩

/-- Settles O9: RGB keeps the alpha of `prev`, RGBA sets all four channels. -/
theorem literalChunksSetPrevAndItsSlot : Obligations.LiteralChunksSetPrevAndItsSlot := fun _ _ _ _ s =>
  ⟨⟨_, rfl, rfl, writesPixel_frame _ s⟩, ⟨_, rfl, rfl, writesPixel_frame _ s⟩⟩

/-- Settles O10: the slot is read before the write. -/
theorem indexChunkReadsItsSlotAndWritesTheHashSlot : Obligations.IndexChunkReadsItsSlotAndWritesTheHashSlot :=
  fun i s =>
  ⟨_, rfl, Vector.getElem?_eq_getElem i.isLt, writesPixel_frame (s.slot i) s⟩

/-- Settles O11: each channel is one `addDelta`. -/
theorem deltaChunksMoveEachChannelMod256 : Obligations.DeltaChunksMoveEachChannelMod256 := fun _ _ _ _ _ s =>
  ⟨⟨_, rfl, movedBy_addDelta _ _, movedBy_addDelta _ _, movedBy_addDelta _ _, rfl, writesPixel_frame _ s⟩,
    ⟨_, rfl, movedBy_addDelta _ _, movedBy_addDelta _ _, movedBy_addDelta _ _, rfl, writesPixel_frame _ s⟩⟩

/-- Settles O12: a length of 1 to 62 less one fits the counter. -/
theorem runChunkSetsOnlyTheRunCounter : Obligations.RunChunkSetsOnlyTheRunCounter := by
  intro n s hwf
  obtain ⟨h1, h62⟩ := wf_run_iff.mp hwf
  refine ⟨_, rfl, ?_, rfl⟩
  rw [offerPixel_run, BitVec.toNat_ofNat]
  omega

end Sys2Proof.Machine
end

section
/-! PROOFS. A chunk at a tag, whole: its bytes are read, it is executed and its pixel delivered, or a read fails (R90 to
R98, R41). -/

namespace Sys2Proof.Machine

open Sys2Proof.Statements

/-! ### The step at a tag -/

/-- The state in which the bytes of a chunk have been read at a tag. -/
def tagRead (s : State) (bytes : List Byte) (rest : List InAnswer) : State :=
  { s with input := rest, pos := s.pos + bytes.length, scratch := bytes }

/-- At a tag the scratch is empty, so it holds what has been read (R24). -/
theorem fetched_at_tag {s : State} (h : s.scratch = []) (bytes : List Byte) (rest : List InAnswer) :
    fetched s bytes rest = tagRead s bytes rest := by
  rw [fetched, h]
  rfl

theorem readsChunk_at_tag {s : State} (h : AtTag s) : ReadsChunk s := ⟨h.host, h.phase, h.offer, h.run⟩

/-- Settles O13: the whole chunk is fetched, decoded and executed. -/
theorem stepRunsTheDecodedChunk : Obligations.StepRunsTheDecodedChunk := by
  intro s bytes i rest hs hd hi
  have hscratch : s.scratch ++ bytes = bytes := by rw [hs.scratch, List.nil_append]
  have hstep := (readsChunk_at_tag hs).step_whole (hscratch.symm ▸ hd) hi
  rw [hstep, fetched_at_tag hs.scratch, execScratch, tagRead, hd]

/-- The state in which that chunk has been executed and its pixel `p` is with the sink. -/
def chunkOffered (s : State) (bytes : List Byte) (rest : List InAnswer) (p : Pixel) (cache : Vector Pixel 64)
    (run : BitVec 6) : State :=
  offerPixel { tagRead s bytes rest with prev := p, cache := cache, run := run }

theorem chunkOffered_accepted {s : State} (h : AtTag s) (bytes : List Byte) (rest : List InAnswer)
    (sink : List SinkAnswer) (p : Pixel) (cache : Vector Pixel 64) (run : BitVec 6) :
    pixelAccepted { chunkOffered s bytes rest p cache run with pixelSink := sink } =
      { afterPixel s bytes rest sink p with cache := cache, run := run } := by
  obtain ⟨-, hphase, hoffer, -, hscratch⟩ := h
  cases s
  cases hphase
  cases hoffer
  cases hscratch
  rfl

/-- A chunk that offers `p` yields it: the sink takes it in the same step (R43, R90). -/
theorem chunkYields_of_exec {s : State} {bytes : List Byte} {i : Instr} {p : Pixel} {cache : Vector Pixel 64}
    {run : BitVec 6} (h : AtTag s) (hd : decode bytes = .ok i [])
    (hexec : ∀ rest, exec i (tagRead s bytes rest) = .next (chunkOffered s bytes rest p cache run)) :
    ChunkYields s bytes p cache run := by
  intro rest sink hi hsink
  have hstep : step s = thenEmit (exec i (tagRead s bytes rest)) := stepRunsTheDecodedChunk s bytes i rest h hd hi
  have hemit := emitPixel_accept (s := chunkOffered s bytes rest p cache run) hsink
  rw [hstep, hexec, thenEmit, hemit, chunkOffered_accepted h]

/-- A chunk that writes `p` leaves the run at 0 (R93 to R97). -/
theorem chunkYields_of_write {s : State} {bytes : List Byte} {i : Instr} {p : Pixel} (h : AtTag s)
    (hd : decode bytes = .ok i [])
    (hexec : ∀ rest, exec i (tagRead s bytes rest) = .next (offerPixel (writePixel p (tagRead s bytes rest)))) :
    ChunkYields s bytes p (cacheWrite s.cache p) 0 :=
  chunkYields_of_exec h hd fun rest => by
    rw [hexec rest, ← h.run]
    rfl

/-! ### A read that fails -/

/-- With the first `j` bytes of the chunk there, a read that fails ends the fetch (R41, R42). -/
theorem fetchChunk_stop {s t : State} {bytes : List Byte} {i : Instr} {rest : List InAnswer} {j : Nat}
    (hscratch : s.scratch = []) (hd : decode bytes = .ok i []) (hj : j < bytes.length)
    (hi : s.input = bytesIn (bytes.take j) ++ rest) (hr : readByte (fetched s (bytes.take j) rest) = .stop t) :
    fetchChunk s = .stop t := by
  have hfive := length_le_of_decode hd
  have hlen : (bytes.take j).length = j := List.length_take_of_le hj.le
  have hshort (n : Nat) (hn : n ≤ j) : chunkComplete (bytes.take n) = false :=
    Bool.eq_false_iff.mpr fun hc => (hn.trans_lt hj).ne ((chunkComplete_take_of_decode hd (by omega)).mp hc)
  have hbefore (n : Nat) (hn : n < (bytes.take j).length) :
      chunkComplete (s.scratch ++ (bytes.take j).take n) = false := by
    rw [hscratch, List.nil_append, List.take_take]
    exact hshort _ (Nat.min_le_right n j)
  have hpart : chunkComplete (fetched s (bytes.take j) rest).scratch = false := by
    rw [fetched, hscratch]
    exact hshort j le_rfl
  have hfuel : 6 = (bytes.take j).length + ((5 - j) + 1) := by omega
  rw [fetchChunk, hfuel, fetchBytes_bytesIn _ hi hbefore, fetchBytes, hpart, hr]
  rfl

/-- A chunk cut after `j` bytes ends the operation at the byte that is missing, before anything is executed (R41,
R129). -/
theorem failsInside_of_decode {s : State} {bytes : List Byte} {i : Instr} (h : AtTag s) (hd : decode bytes = .ok i []) :
    FailsInside s bytes := by
  intro j rest hj
  have hread (next : List InAnswer) : fetched s (bytes.take j) next =
      { s with input := next, pos := s.pos + j, scratch := bytes.take j } := by
    rw [fetched_at_tag h.scratch, tagRead, List.length_take_of_le hj.le]
  have hstop {next : List InAnswer} {t : State} (hi : s.input = bytesIn (bytes.take j) ++ next)
      (hr : readByte { s with input := next, pos := s.pos + j, scratch := bytes.take j } = .stop t) :
      step s = .next t := by
    rw [← hread] at hr
    simp [(readsChunk_at_tag h).step_eq, decChunksStep, h.offer, h.run, fetchChunk_stop h.scratch hd hj hi hr]
  exact ⟨fun hi => hstop hi rfl, fun _ hi => hstop hi rfl⟩

/-! ### The six kinds -/

/-- Settles O14: the three payload bytes and the alpha of `prev` are the pixel. -/
theorem rgbChunkStep : Obligations.RgbChunkStep := by
  intro s r g b hs
  have hd : decode [0xFE, r, g, b] = .ok (.rgb r g b) [] := rfl
  exact ⟨⟨_, writesHashSlot_cacheWrite _ _, chunkYields_of_write hs hd fun _ => rfl⟩, failsInside_of_decode hs hd⟩

/-- Settles O15: the four payload bytes are the pixel. -/
theorem rgbaChunkStep : Obligations.RgbaChunkStep := by
  intro s r g b a hs
  have hd : decode [0xFF, r, g, b, a] = .ok (.rgba r g b a) [] := rfl
  exact ⟨⟨_, writesHashSlot_cacheWrite _ _, chunkYields_of_write hs hd fun _ => rfl⟩, failsInside_of_decode hs hd⟩

/-- Settles O16: the tag is the slot that is read; the all-zero pixel has the hash 0. -/
theorem indexChunkStep : Obligations.IndexChunkStep := by
  intro s t hs ht
  obtain ⟨hindex, -⟩ := chunkFieldsHaveTheirBitsAndBiases t 0 0 0 0 []
  obtain ⟨i, hi, hd⟩ := hindex ht
  have hslot : s.cache[t.toNat]? = some (s.slot i) := by
    rw [← hi]
    exact Vector.getElem?_eq_getElem i.isLt
  refine ⟨⟨s.slot i, _, hslot, writesHashSlot_cacheWrite _ _, chunkYields_of_write hs hd fun _ => rfl, fun hzero => ?_⟩,
    failsInside_of_decode hs hd⟩
  rw [hzero, cacheWrite_get, if_pos (by decide)]

/-- Settles O17: each channel moves by its field of the tag. -/
theorem diffChunkStep : Obligations.DiffChunkStep := by
  intro s t hs h64 h128
  have hd := diffFieldsHaveTheirBitsAndBias t [] ⟨h64, h128⟩
  exact ⟨⟨shiftPixel s.prev _ _ _, _, movedBy_addDelta _ _, movedBy_addDelta _ _, movedBy_addDelta _ _, rfl,
    writesHashSlot_cacheWrite _ _, chunkYields_of_write hs hd fun _ => rfl⟩, failsInside_of_decode hs hd⟩

/-- Settles O18: green moves by its field of the tag, red and blue by that and a field of the payload. -/
theorem lumaChunkStep : Obligations.LumaChunkStep := by
  intro s t q hs h128 h192
  obtain ⟨-, hluma, -⟩ := chunkFieldsHaveTheirBitsAndBiases t q 0 0 0 []
  have hd := hluma ⟨h128, h192⟩
  exact ⟨⟨shiftPixel s.prev _ _ _, _, movedBy_addDelta _ _, movedBy_addDelta _ _, movedBy_addDelta _ _, rfl,
    writesHashSlot_cacheWrite _ _, chunkYields_of_write hs hd fun _ => rfl⟩, failsInside_of_decode hs hd⟩

/-- Settles O19: the tag's low six bits are the length less one. -/
theorem runChunkStep : Obligations.RunChunkStep := by
  intro s t hs h192 h254
  obtain ⟨-, -, hrun, -⟩ := chunkFieldsHaveTheirBitsAndBiases t 0 0 0 0 []
  have hd := hrun ⟨h192, h254⟩
  have hlow : t.toNat - 192 = t.toNat % 64 + 1 - 1 := by omega
  rw [hlow]
  exact ⟨chunkYields_of_exec hs hd fun _ => rfl, failsInside_of_decode hs hd⟩

/-! ### Run continuation -/

/-- Settles O20: `prev` is offered again, and the run is above 0 so it does not wrap. -/
theorem runContinuationReadsNothing : Obligations.RunContinuationReadsNothing := by
  intro s sink hhost hphase hoffer hrun hsink
  have hpos : s.run.toNat ≠ 0 := fun h0 => hrun (BitVec.eq_of_toNat_eq h0)
  refine ⟨s.run - 1, by bv_omega, ?_⟩
  have hstep : step s = decChunksStep s := by rw [step_silent hhost, blockStep, hphase]
  rw [hstep, decChunksStep, hoffer, if_neg Bool.false_ne_true, if_pos hrun, emitPixel_accept (s := runContinue s) hsink]
  cases s
  cases hphase
  cases hoffer
  rfl

end Sys2Proof.Machine
end

section
/-! PROOFS. The end marker of a DECODE, byte by byte (R100, R41). -/

namespace Sys2Proof.Machine

open Sys2Proof.Statements

/-- The block checks an end marker, with a silent host. -/
structure ReadsMarker (s : State) : Prop where
  host : s.host = []
  phase : s.phase = .decEnd

theorem ReadsMarker.step_eq {s : State} (h : ReadsMarker s) : step s = .next (decEndStep s) := by
  rw [step_silent h.host, blockStep, h.phase]

/-- The state after `j` right bytes of the marker. -/
def markerRead (s : State) (rest : List InAnswer) (j : Nat) : State :=
  { s with input := rest, pos := s.pos + j, markAt := j }

theorem ReadsMarker.step_at {s : State} (h : ReadsMarker s) (rest : List InAnswer) (j : Nat) :
    step (markerRead s rest j) = .next (decEndStep (markerRead s rest j)) := ReadsMarker.step_eq ⟨h.host, h.phase⟩

/-- Byte `j` of the marker is right (R100). -/
theorem step_markerRead {s : State} {rest : List InAnswer} {j : Nat} (h : ReadsMarker s) :
    step (markerRead s (.byte (endMarker.getD j 0) :: rest) j) =
      .next { markerRead s rest (j + 1) with phase := if j + 1 < 8 then s.phase else .done } := by
  have hread : decEndStep (markerRead s (.byte (endMarker.getD j 0) :: rest) j) =
      markDone { markerRead s rest j with pos := s.pos + j + 1 } := if_pos rfl
  exact (h.step_at _ j).trans (congrArg Host.Outcome.next hread)

/-- The first `j` bytes are right, and the block is still in its marker (R100). -/
theorem run_markerRead {s : State} (h : ReadsMarker s) (hmark : s.markAt = 0) {j : Nat} (hj : j < 8)
    {rest : List InAnswer} (hi : s.input = bytesIn (endMarker.take j) ++ rest) : runs j s (markerRead s rest j) := by
  induction j generalizing rest with
  | zero =>
    have hinput : s.input = rest := hi
    have hsame : markerRead s rest 0 = s := by rw [markerRead, ← hinput, Nat.add_zero, ← hmark]
    rw [hsame]
    exact run_zero s
  | succ j ih =>
    have hlen : j < endMarker.length := Nat.lt_of_succ_lt hj
    have htake : endMarker.take (j + 1) = endMarker.take j ++ [endMarker.getD j 0] := by
      rw [List.take_add_one, List.getElem?_eq_getElem hlen, List.getD_eq_getElem _ _ hlen, Option.toList_some]
    rw [htake, bytesIn, List.map_append, List.append_assoc] at hi
    have hstep := step_markerRead (rest := rest) (j := j) h
    rw [if_pos hj] at hstep
    exact run_trans (ih (Nat.lt_of_succ_lt hj) hi) (run_one hstep)

/-- Settles O24: seven right bytes by induction, and then the last one, or anything else at byte `j`. -/
theorem endMarkerIsCheckedByteByByte : Obligations.EndMarkerIsCheckedByteByByte := by
  intro s rest hhost hphase hmark marker
  have hreads : ReadsMarker s := ⟨hhost, hphase⟩
  refine ⟨fun hi => ?_, fun j hj => ⟨fun b hb hi => ?_, fun hi => ?_, fun e hi => ?_⟩⟩
  · have hbefore := run_markerRead hreads hmark (j := 7) (rest := .byte 1 :: rest) (by decide) hi
    exact run_trans hbefore (run_one (step_markerRead hreads))
  · have hwrong : b ≠ endMarker.getD j 0 := by
      rwa [List.getElem?_eq_getElem hj, Ne, Option.some_inj, ← List.getD_eq_getElem (d := 0)] at hb
    have hstep : step (markerRead s (.byte b :: rest) j) =
        .next (raise .badEndMarker (s.pos + j) (b.setWidth 64) { markerRead s rest j with pos := s.pos + j + 1 }) :=
      (hreads.step_at _ j).trans (congrArg Host.Outcome.next (if_neg hwrong))
    exact run_trans (run_markerRead hreads hmark hj hi) (run_one hstep)
  · exact run_trans (run_markerRead hreads hmark hj hi) (run_one (hreads.step_at _ j))
  · exact run_trans (run_markerRead hreads hmark hj hi) (run_one (hreads.step_at _ j))

end Sys2Proof.Machine
end

section
/-! PROOFS. A DECODE whose channels answer without delay ends: each step of its three phases reads its bytes, and the
phases are 14 bytes, at most MAX_PIXELS pixels and 8 bytes long (R90, R145). -/

namespace Sys2Proof.Machine

open Sys2Proof.Statements

/-! ### The end of an operation -/

/-- The operation is over, and the host is silent. -/
structure Stopped (s : State) : Prop where
  host : s.host = []
  phase : s.phase = .done ∨ s.phase = .error

theorem Stopped.runs {s : State} (h : Stopped s) (n : Nat) : runs n s s := by
  have hstep : step s = .next s := by
    rw [step_silent h.host, blockStep]
    rcases h.phase with hp | hp <;> rw [hp]
  induction n with
  | zero => exact run_zero s
  | succ n ih => exact run_step hstep ih

/-- After `n` steps the operation is over. -/
def EndsIn (n : Nat) (s : State) : Prop := ∃ t, runs n s t ∧ Stopped t

theorem endsIn_of_stopped {s : State} (h : Stopped s) (n : Nat) : EndsIn n s := ⟨s, h.runs n, h⟩

theorem EndsIn.of_step {n : Nat} {s t : State} (h : EndsIn n t) (hs : step s = .next t) : EndsIn (n + 1) s := by
  obtain ⟨u, hrun, hu⟩ := h
  exact ⟨u, run_step hs hrun, hu⟩

/-- An operation that is over stays so. -/
theorem EndsIn.mono {m n : Nat} {s : State} (h : EndsIn m s) (hmn : m ≤ n) : EndsIn n s := by
  obtain ⟨t, hrun, ht⟩ := h
  obtain ⟨d, rfl⟩ := Nat.exists_eq_add_of_le hmn
  exact ⟨t, run_trans hrun (ht.runs d), ht⟩

theorem Raised.stopped {u t : State} (h : Raised u t) (hh : u.host = []) : Stopped t := by
  refine ⟨?_, .inr h.phase⟩
  cases h <;> exact hh

/-! ### Input without delays -/

/-- At least `n` answers are there, and none is a delay. -/
structure Prompt (n : Nat) (input : List InAnswer) : Prop where
  answers : ∀ a ∈ input, a ≠ .wait
  enough : n ≤ input.length

/-- What is left after some answers is as prompt. -/
theorem Prompt.rest {m n : Nat} {taken rest : List InAnswer} (h : Prompt n (taken ++ rest))
    (hm : m + taken.length ≤ n) : Prompt m rest := by
  have henough := h.enough
  rw [List.length_append] at henough
  exact ⟨fun a ha => h.answers a (List.mem_append_right _ ha), by omega⟩

/-- A prompt channel that delivers no byte has ended the operation. -/
theorem ReadStops.stopped {n : Nat} {s t : State} (h : ReadStops s t) (hh : s.host = []) (hi : Prompt (n + 1) s.input) :
    Stopped t := by
  cases h with
  | waits rest silent =>
    rcases silent with hnil | hwait
    · simpa [hnil] using hi.enough
    · exact absurd rfl (hi.answers _ hwait)
  | fails rest raised => exact raised.stopped hh

/-! ### The end marker -/

/-- A DECODE with `n` bytes of its end marker to read. -/
structure AtMarker (n : Nat) (s : State) : Prop where
  host : s.host = []
  phase : s.phase = if s.markAt < 8 then .decEnd else .done
  mark : s.markAt + n = 8
  input : Prompt n s.input

theorem AtMarker.next {n : Nat} {s : State} (h : AtMarker (n + 1) s) :
    ∃ t, step s = .next t ∧ (Stopped t ∨ AtMarker n t) := by
  have hmark := h.mark
  have hphase : s.phase = .decEnd := h.phase.trans (if_pos (by omega))
  refine ⟨_, ReadsMarker.step_eq ⟨h.host, hphase⟩, ?_⟩
  unfold decEndStep
  rcases readByte_serves_or_stops s with ⟨b, rest, hi, hr⟩ | ⟨t, hr, hstop⟩ <;> simp only [hr]
  · split
    · have hinput := h.input
      rw [hi] at hinput
      refine .inr ⟨h.host, ?_, ?_, hinput.rest (taken := [.byte b]) le_rfl⟩
      · rw [markDone_phase, markDone_markAt]
        exact if_congr Iff.rfl hphase rfl
      · rw [markDone_markAt]
        dsimp only
        omega
    · exact .inl (Raised.stopped (.plain _ _ _) h.host)
  · exact .inl (hstop.stopped h.host h.input)

theorem AtMarker.endsIn {n : Nat} {s : State} (h : AtMarker n s) : EndsIn n s := by
  induction n generalizing s with
  | zero =>
    have hdone : s.phase = .done := h.phase.trans (if_neg (by have := h.mark; omega))
    exact endsIn_of_stopped ⟨h.host, .inl hdone⟩ 0
  | succ n ih =>
    obtain ⟨t, hs, hstopped | hnext⟩ := h.next
    · exact (endsIn_of_stopped hstopped n).of_step hs
    · exact (ih hnext).of_step hs

/-! ### The chunks -/

/-- A DECODE with `n` pixels to produce, and a sink that takes them. -/
structure AtChunk (n : Nat) (s : State) : Prop where
  host : s.host = []
  phase : s.phase = if s.k < s.npix then .decChunks else .decEnd
  offer : s.offer = false
  scratch : s.scratch = []
  mark : s.markAt = 0
  count : s.k + n = s.npix
  input : Prompt (5 * n + 8) s.input
  sink : ∃ sink, s.pixelSink = List.replicate n .accept ++ sink

theorem AtChunk.next {n : Nat} {s : State} (h : AtChunk (n + 1) s) :
    ∃ t, step s = .next t ∧ (Stopped t ∨ AtChunk n t) := by
  have hcount := h.count
  have hphase : s.phase = .decChunks := h.phase.trans (if_pos (by omega))
  obtain ⟨t, ht, hstep⟩ := decChunksStep_chunkStep (s := s) (by rw [h.scratch]; rfl) fun _ => h.scratch
  have hs : step s = decChunksStep s := by rw [step_silent h.host, blockStep, hphase]
  refine ⟨t, hs.trans ht, ?_⟩
  cases hstep with
  | @pixel v bytes rest hi hshort _ hpos hframe =>
    obtain ⟨sink, hsink⟩ := h.sink
    have hinput := h.input
    rw [hi] at hinput
    have haccept : v.pixelSink = .accept :: (List.replicate n .accept ++ sink) := by
      rw [hframe]
      exact hsink
    have hk : v.k = s.k := by rw [hframe]
    have hnpix : v.npix = s.npix := by rw [hframe]
    have hmark : v.markAt = s.markAt := by rw [hframe]
    have hhost : v.host = s.host := by rw [hframe]
    have hscratch : v.scratch = [] := by rw [hframe]
    have hrest : v.input = rest := by rw [hframe]
    rw [emitPixel_accept haccept]
    refine .inr ⟨hhost.trans h.host, ?_, rfl, hscratch, hmark.trans h.mark, ?_, ?_, sink, rfl⟩
    · rw [pixelAccepted_phase, pixelAccepted_k, pixelAccepted_npix]
      exact if_congr Iff.rfl (by rw [hframe]; exact hphase) rfl
    · rw [pixelAccepted_k, pixelAccepted_npix]
      dsimp only
      omega
    · rw [pixelAccepted_input, hrest]
      exact hinput.rest (by rw [List.length_map]; omega)
  | waits bytes rest _ _ hpart silent =>
    have hfour := length_le_four_of_unfinished hpart
    rw [h.scratch, List.nil_append] at hfour
    rcases silent with hall | hwait
    · have henough := h.input.enough
      rw [hall, List.length_map] at henough
      omega
    · exact absurd rfl (h.input.answers _ hwait)
  | fails bytes rest _ _ _ raised => exact .inl (raised.stopped h.host)

theorem AtChunk.endsIn {n : Nat} {s : State} (h : AtChunk n s) : EndsIn (n + 8) s := by
  induction n generalizing s with
  | zero =>
    have hphase : s.phase = .decEnd := h.phase.trans (if_neg (by have := h.count; omega))
    refine AtMarker.endsIn ⟨h.host, ?_, ?_, ?_⟩
    · rw [h.mark]
      exact hphase
    · rw [h.mark]
    · exact h.input
  | succ n ih =>
    obtain ⟨t, hs, hstopped | hnext⟩ := h.next
    · exact (endsIn_of_stopped hstopped _).of_step hs
    · exact (ih hnext).of_step hs

/-! ### The header -/

/-- A DECODE with `n` bytes of its header to read, and a sink for as many pixels as MAX_PIXELS, which is `m`. -/
structure AtHeader (m n : Nat) (s : State) : Prop where
  host : s.host = []
  phase : s.phase = .decHeader
  op : s.op = .decode
  limit : s.maxPixels = m
  more : s.pos < 14
  pos : s.pos + n = 14
  scratch : s.scratch.length = gathered s.pos
  offer : s.offer = false
  mark : s.markAt = 0
  k : s.k = 0
  input : Prompt (n + (5 * m + 8)) s.input
  sink : ∃ sink, s.pixelSink = List.replicate m .accept ++ sink

/-- An image within MAX_PIXELS begins with as many pixels to produce as it has (R84, R90). -/
theorem atChunk_of_atHeader {m n : Nat} {s : State} (h : AtHeader m n s) (hs : s.scratch = []) (f : Byte) {npix : Nat}
    (hpos : 0 < npix) (hlimit : npix ≤ s.maxPixels) {input : List InAnswer} (hi : Prompt (5 * m + 8) input)
    (pos : Nat) :
    AtChunk npix
      { initStream s with input := input, pos := pos, colorspace := f, npix := npix, phase := .decChunks } where
  host := h.host
  phase := by simp [h.k, hpos]
  offer := h.offer
  scratch := hs
  mark := h.mark
  count := by simp [h.k]
  input := Prompt.rest (taken := []) hi (by have := h.limit; rw [List.length_nil]; omega)
  sink := by
    obtain ⟨sink, hsink⟩ := h.sink
    obtain ⟨d, hd⟩ := Nat.exists_eq_add_of_le (h.limit ▸ hlimit)
    refine ⟨List.replicate d .accept ++ sink, ?_⟩
    rw [← List.append_assoc, List.replicate_append_replicate, ← hd]
    exact hsink

theorem AtHeader.next {m n : Nat} {s : State} (h : AtHeader m (n + 1) s) :
    ∃ t, step s = .next t ∧ (Stopped t ∨ AtHeader m n t ∨ ∃ npix ≤ m, AtChunk npix t) := by
  refine ⟨_, ReadsHeader.step_eq ⟨h.host, h.phase⟩, ?_⟩
  unfold decHeaderStep
  rcases readByte_serves_or_stops s with ⟨b, rest, hi, hr⟩ | ⟨t, hr, hstop⟩ <;> simp only [hr]
  · have hinput := h.input
    rw [hi] at hinput
    have hrest : Prompt (n + (5 * m + 8)) rest :=
      hinput.rest (taken := [.byte b]) (by rw [List.length_singleton]; omega)
    have hpos := h.pos
    have hbyte := takeHeaderByte_headerByte (s := { s with input := rest, pos := s.pos + 1 }) b h.more h.scratch
    generalize takeHeaderByte s.pos b { s with input := rest, pos := s.pos + 1 } = t at hbyte ⊢
    cases hbyte with
    | field left w ht c hmore hleft =>
      exact .inr (.inl ⟨h.host, h.phase, h.op, h.limit, Nat.succ_lt_succ hmore, by dsimp only; omega, hleft, h.offer,
        h.mark, h.k, hrest, h.sink⟩)
    | config _ _ hop =>
      have hdecode := h.op
      simp [hdecode] at hop
    | stream f npix hlast hscratch hpositive hlimit =>
      exact .inr (.inr ⟨npix, h.limit ▸ hlimit,
        atChunk_of_atHeader h hscratch f hpositive hlimit (hrest.rest (taken := []) (by simp)) _⟩)
    | fails left c f _ raised => exact .inl (raised.stopped h.host)
  · exact .inl (hstop.stopped h.host (n := n + (5 * m + 8)) (by rw [Nat.add_right_comm]; exact h.input))

theorem AtHeader.endsIn {m n : Nat} {s : State} (h : AtHeader m n s) : EndsIn (n + (m + 8)) s := by
  induction n generalizing s with
  | zero => exact absurd h.pos h.more.ne
  | succ n ih =>
    rw [Nat.add_right_comm]
    obtain ⟨t, hs, hstopped | hnext | ⟨npix, hlimit, hchunk⟩⟩ := h.next
    · exact (endsIn_of_stopped hstopped _).of_step hs
    · exact (ih hnext).of_step hs
    · exact (hchunk.endsIn.mono (by omega)).of_step hs

/-- Settles O55: 14 bytes, at most MAX_PIXELS pixels and 8 bytes, a step for each. -/
theorem decodeEndsWhenItsChannelsAnswer : Obligations.DecodeEndsWhenItsChannelsAnswer := by
  intro s sink hs hprompt hlen hsink
  have hheader : AtHeader s.maxPixels 14 s :=
    ⟨hs.host, hs.phase, hs.op, rfl, by rw [hs.pos]; decide, by rw [hs.pos], by rw [hs.scratch, hs.pos]; rfl, hs.offer,
      hs.markAt, hs.k, ⟨hprompt, by omega⟩, sink, hsink⟩
  obtain ⟨t, hrun, ht⟩ := hheader.endsIn.mono (n := 22 + s.maxPixels) (by omega)
  exact ⟨t, hrun, ht.phase⟩

end Sys2Proof.Machine
end

section
/-! PROOFS. The chunk the encoder chooses: its bytes are those of the statements, and executing it gives the pixel back
(R107, R111 to R117, R119). -/

namespace Sys2Proof.Machine

open Sys2Proof.Statements

/-! ### Signed differences -/

/-- The signed difference is the representative of `new - old` mod 256 between -128 and 127 (R111). -/
theorem channelDelta_eq (new old : Byte) : channelDelta new old = signedDelta new old := by
  rw [channelDelta, sext8, wrap8, BitVec.toInt_ofInt, Int.bmod_def, signedDelta]
  split <;> omega

/-- Moving a channel by its signed difference leads to the new value (R104, R111). -/
theorem addDelta_channelDelta (new old : Byte) : addDelta old (channelDelta new old) = new := by
  have hnew : new.toNat < 256 := new.isLt
  apply BitVec.eq_of_toNat_eq
  rw [channelDelta_eq, addDelta, wrap8, BitVec.toNat_ofInt, signedDelta]
  omega

/-- A pixel with the alpha of `prev` is `prev` moved by the three differences (R112 to R114). -/
theorem shiftPixel_deltas {p prev : Pixel} (ha : p.a = prev.a) :
    shiftPixel prev (deltas p prev).dr (deltas p prev).dg (deltas p prev).db = p := by
  simp only [shiftPixel, deltas, addDelta_channelDelta, ← ha]

/-! ### The chosen chunk -/

/-- Every chunk the encoder chooses has its operands in range (R73, R107). -/
theorem selectChunk_wf (prev : Pixel) (cache : Vector Pixel 64) (p : Pixel) :
    (selectChunk prev cache p).wf = true := by
  unfold selectChunk
  dsimp only
  split_ifs with _ _ hdiff hluma
  · rfl
  · exact hdiff
  · exact hluma
  · rfl
  · rfl

/-- Executed from the same `prev` and cache, the chosen chunk offers the pixel and writes it to its slot (R119). -/
theorem exec_selectChunk (p : Pixel) (s : State) :
    exec (selectChunk s.prev s.cache p) s = .next (offerPixel (writePixel p s)) := by
  unfold selectChunk
  dsimp only
  split_ifs with hheld halpha hdiff hluma
  · have hslot : s.slot (hash6 p) = p := hheld
    rw [exec, execIndex, hslot]
  · rw [exec, execDiff, shiftPixel_deltas halpha]
  · rw [exec, execLuma, add_sub_cancel, add_sub_cancel, shiftPixel_deltas halpha]
  · rw [exec, execRgb, ← halpha]
  · rfl

/-! ### Its bytes -/

/-- The slot is held under the number the hash formula gives (R34, R112). -/
theorem slot_held_iff (cache : Vector Pixel 64) (p : Pixel) :
    cache[(hash6 p).val]? = some p ↔ cache.get (hash6 p) = p := by
  rw [Vector.getElem?_eq_getElem (hash6 p).isLt, Option.some_inj, Vector.get_eq_getElem]

theorem encIndex_eq (i : Fin 64) : encIndex i = [BitVec.ofNat 8 i.val] :=
  encIndex_eq_iff.mpr (by rw [BitVec.toNat_ofNat]; omega)

/-- The value of the DIFF byte (R66, R74; log 19). -/
theorem encDiff_eq {dr dg db : Int} (h : (Instr.diff dr dg db).wf = true) :
    encDiff dr dg db = [BitVec.ofInt 8 (64 + 16 * (dr + 2) + 4 * (dg + 2) + (db + 2))] := by
  obtain ⟨hr, hg, hb⟩ := wf_diff_iff.mp h
  rw [encDiff_eq_iff h, BitVec.toNat_ofInt]
  omega

/-- The values of the two LUMA bytes (R67, R74). -/
theorem encLuma_eq {dg drg dbg : Int} (h : (Instr.luma dg drg dbg).wf = true) :
    encLuma dg drg dbg = [BitVec.ofInt 8 (128 + (dg + 32)), BitVec.ofInt 8 (16 * (drg + 8) + (dbg + 8))] := by
  obtain ⟨hg, hrg, hbg⟩ := wf_luma_iff.mp h
  rw [encLuma_eq_iff h, BitVec.toNat_ofInt, BitVec.toNat_ofInt]
  omega

/-- The value of the RUN byte (R68, R74). -/
theorem encRun_eq {n : Nat} (h1 : 1 ≤ n) (h62 : n ≤ 62) : encRun n = [BitVec.ofNat 8 (0xC0 + (n - 1))] := by
  rw [encRun_eq_iff (wf_run_iff.mpr ⟨h1, h62⟩), BitVec.toNat_ofNat]
  omega

/-- The bytes of the statements are the encoding of the chosen chunk (R74, R107). -/
theorem chosenBytes_eq (prev : Pixel) (cache : Vector Pixel 64) (p : Pixel) :
    chosenBytes prev cache p = encode (selectChunk prev cache p) := by
  simp only [chosenBytes, selectChunk, deltas, channelDelta_eq, ← hash6_val, slot_held_iff, apply_ite encode]
  refine if_congr Iff.rfl (encIndex_eq _).symm (if_congr Iff.rfl ?_ rfl)
  exact ite_congr (propext wf_diff_iff.symm) (fun hdiff => (encDiff_eq hdiff).symm) fun _ =>
    ite_congr (propext wf_luma_iff.symm) (fun hluma => (encLuma_eq hluma).symm) fun _ => rfl

/-- The chosen bytes are one chunk, the chosen one (R119). -/
theorem decode_chosenBytes (prev : Pixel) (cache : Vector Pixel 64) (p : Pixel) :
    decode (chosenBytes prev cache p) = .ok (selectChunk prev cache p) [] := by
  have hd := decodeInvertsEncode (selectChunk prev cache p) [] (selectChunk_wf prev cache p)
  rwa [List.append_nil, ← chosenBytes_eq] at hd

/-- Settles O36: the chosen bytes decode to the chosen chunk, and that chunk gives the pixel. -/
theorem chosenChunkDecodesToItsPixel : Obligations.ChosenChunkDecodesToItsPixel := fun s p _ =>
  ⟨_, _, decode_chosenBytes s.prev s.cache p, exec_selectChunk p s, rfl, writesHashSlot_cacheWrite s.cache p, rfl⟩

end Sys2Proof.Machine
end

section
/-! PROOFS. The step of one pixel of an ENCODE: a pixel equal to `prev`, and one that differs from it (R107 to R117,
R121, R129). -/

namespace Sys2Proof.Machine

open Sys2Proof.Statements

/-! ### Writing a chunk to a sink whose answers are known -/

theorem sent_sent (s : State) (first second left after : List Byte) (between sink : List OutAnswer) :
    sent (sent s first left between) second after sink = sent s (first ++ second) after sink := by
  simp [sent, Nat.add_assoc]

/-- Bytes the sink accepts leave the scratch one after another, whatever comes after them (R46). -/
theorem writeScratch_append {s : State} {bytes left : List Byte} {sink : List OutAnswer}
    (hscratch : s.scratch = bytes ++ left) (hs : s.byteSink = List.replicate bytes.length .ok ++ sink) :
    writeScratch (bytes ++ left) s = writeScratch left (sent s bytes left sink) := by
  induction bytes generalizing s with
  | nil =>
    have hsink : s.byteSink = sink := hs
    have hleft : s.scratch = left := hscratch
    have hsame : sent s [] left sink = s := by simp [sent, ← hsink, ← hleft]
    rw [hsame, List.nil_append]
  | cons b bytes ih =>
    have hwrite : writeByte b s = .ok
        { s with
          byteSink := List.replicate bytes.length .ok ++ sink, opos := s.opos + 1, written := s.written ++ [b] } := by
      rw [writeByte, hs]
      rfl
    rw [List.cons_append, writeScratch, hwrite]
    dsimp only
    rw [ih rfl rfl]
    exact congrArg (writeScratch left) (sent_sent s [b] bytes (bytes ++ left) left _ sink)

/-- A sink that accepts every byte of the scratch takes all of it (R46). -/
theorem writeScratch_accepted {s : State} {sink : List OutAnswer}
    (hs : s.byteSink = List.replicate s.scratch.length .ok ++ sink) :
    writeScratch s.scratch s = .ok (sent s s.scratch [] sink) := by
  have hwrite := writeScratch_append (left := []) (s.scratch.append_nil).symm hs
  rwa [List.append_nil] at hwrite

/-- A refused byte stops the writing at its offset, and stays in the scratch with those after it (R46, R24). -/
theorem writeScratch_refused {s : State} {j : Nat} {e : Config.IoErrT} {sink : List OutAnswer}
    (hj : j < s.scratch.length) (hs : s.byteSink = List.replicate j .ok ++ .ioErr e :: sink) :
    writeScratch s.scratch s =
      .stop (raiseIo e (s.opos + j) (sent s (s.scratch.take j) (s.scratch.drop j) sink)) := by
  have hlen : (s.scratch.take j).length = j := List.length_take_of_le hj.le
  have hwrite := writeScratch_append (s.scratch.take_append_drop j).symm (hlen.symm ▸ hs)
  rw [List.take_append_drop] at hwrite
  obtain ⟨b, left, hleft⟩ := List.exists_cons_of_length_pos (l := s.scratch.drop j) (by rw [List.length_drop]; omega)
  have hopos : (sent s (s.scratch.take j) (b :: left) sink).opos = s.opos + j := congrArg (s.opos + ·) hlen
  rw [hwrite, hleft, writeScratch, ← hopos]
  rfl

/-! ### The RUN chunk of a pending run -/

/-- The state in which the pending run has been written and cleared (R109, R110). -/
def runFlushed (s : State) (sink : List OutAnswer) : State :=
  { sent s (encRun s.run.toNat) [] sink with run := 0 }

theorem emitRun_accepted {s : State} {sink : List OutAnswer} (hs : s.byteSink = .ok :: sink) :
    emitRun (loadRun s) = .ok (runFlushed s sink) := by
  rw [emitRun, writeScratch_accepted (s := loadRun s) hs]
  rfl

theorem emitRun_refused {s : State} {e : Config.IoErrT} {sink : List OutAnswer} (hs : s.byteSink = .ioErr e :: sink) :
    emitRun (loadRun s) = .stop (raiseIo e s.opos { loadRun s with byteSink := sink }) := by
  rw [emitRun, writeScratch_refused (s := loadRun s) (j := 0) Nat.one_pos hs]
  simp [sent]

/-! ### The chunk of a pixel -/

/-- The state in which the chunk chosen for `p` is in the scratch (R107, R24). -/
def chunkLoaded (p : Pixel) (s : State) : State := { s with scratch := chosenBytes s.prev s.cache p }

theorem beginChunk_eq (p : Pixel) (s : State) : beginChunk p s = continueChunk p (chunkLoaded p s) := by
  rw [beginChunk, chunkLoaded, chosenBytes_eq]

section Chunk

variable {s : State} {p : Pixel} {e : Config.IoErrT} {sink : List OutAnswer}

/-- Where its chunk is accepted, the pixel becomes `prev` and enters its slot (R117). -/
theorem beginChunk_accepted
    (hs : s.byteSink = List.replicate (chosenBytes s.prev s.cache p).length .ok ++ sink) :
    beginChunk p s = pixelEncoded (writePixel p (sent s (chosenBytes s.prev s.cache p) [] sink)) := by
  rw [beginChunk_eq, continueChunk, writeScratch_accepted (s := chunkLoaded p s) hs]
  rfl

/-- A refused byte of the chunk ends the operation before `prev` and the cache change (R129). -/
theorem beginChunk_refused {j : Nat} (hj : j < (chosenBytes s.prev s.cache p).length)
    (hs : s.byteSink = List.replicate j .ok ++ .ioErr e :: sink) :
    beginChunk p s = raiseIo e (s.opos + j)
      (sent s ((chosenBytes s.prev s.cache p).take j) ((chosenBytes s.prev s.cache p).drop j) sink) := by
  rw [beginChunk_eq, continueChunk, writeScratch_refused (s := chunkLoaded p s) hj hs]
  rfl

end Chunk

/-! ### A pixel is taken -/

/-- A step in the chunk phase of an ENCODE (R56). -/
theorem step_encChunks {s : State} (hhost : s.host = []) (hphase : s.phase = .encChunks) :
    step s = .next (encChunksStep s) := by
  rw [step_silent hhost, blockStep, hphase]

/-- The state with other offers still to come. -/
def fed (s : State) (source : List SourceOffer) : State := { s with pixelSource := source }

/-- Between two pixels, an offered pixel is taken and its step begins (R105, R107). -/
theorem step_takePixel {s : State} {p : Pixel} {source : List SourceOffer} (h : AtPixel s)
    (hsource : s.pixelSource = .pixel p :: source) :
    step s = .next (takePixel p (fed s source)) := by
  have hnext : encChunksStep s = nextPixel s := by simp only [encChunksStep, h.cur]
  rw [step_encChunks h.host h.phase, hnext, nextPixel, hsource, fed]

/-- The state in which `p` is in flight (log 13). -/
def taken (p : Pixel) (s : State) : State := { s with cur := some p }

/-- The state in which `p` is in flight and has been counted as a repeat (R108). -/
def counted (p : Pixel) (s : State) : State := { taken p s with run := s.run + 1 }

/-- What completes the step of a pixel between two others (R105). -/
theorem pixelEncoded_sent {s : State} (h : AtPixel s) (p : Pixel) (source : List SourceOffer) (bytes : List Byte)
    (sink : List OutAnswer) (run : BitVec 6) :
    pixelEncoded (sent { taken p (fed s source) with run := run } bytes [] sink) =
      afterStep s source sink bytes run := by
  obtain ⟨-, hphase, hcur, hscratch⟩ := h
  cases s
  cases hphase
  cases hcur
  cases hscratch
  rfl

/-! ### The branches of a pixel's step -/

section Branches

variable {s : State} {p : Pixel}

theorem resumePixel_repeat (heq : p = s.prev) : resumePixel p s = (emitRun s).andThen pixelEncoded := if_pos heq

theorem resumePixel_pending (hdiff : p ≠ s.prev) (hrun : s.run ≠ 0) :
    resumePixel p s = (emitRun s).andThen (beginChunk p) := (if_neg hdiff).trans (if_pos hrun)

theorem resumePixel_idle (hdiff : p ≠ s.prev) (hrun : s.run = 0) : resumePixel p s = continueChunk p s :=
  (if_neg hdiff).trans (if_neg (not_not.mpr hrun))

/-- A repeat that neither fills the run nor ends the image is only counted (R108). -/
theorem takePixel_counts (heq : p = s.prev) (hfull : s.run + 1 ≠ 62) (hlast : s.k + 1 ≠ s.npix) :
    takePixel p s = pixelEncoded (counted p s) := (if_pos heq).trans (if_neg (not_or.mpr ⟨hfull, hlast⟩))

/-- A repeat that fills the run or ends the image has the RUN chunk written (R109). -/
theorem takePixel_flushes (heq : p = s.prev) (hflush : s.run + 1 = 62 ∨ s.k + 1 = s.npix) :
    takePixel p s = resumePixel p (loadRun (counted p s)) := (if_pos heq).trans (if_pos hflush)

/-- Another pixel has the RUN chunk of a pending run written before its own (R110). -/
theorem takePixel_pending (hdiff : p ≠ s.prev) (hrun : s.run ≠ 0) :
    takePixel p s = resumePixel p (loadRun (taken p s)) := (if_neg hdiff).trans (if_pos hrun)

/-- Without a pending run its chunk comes at once (R107). -/
theorem takePixel_idle (hdiff : p ≠ s.prev) (hrun : s.run = 0) : takePixel p s = beginChunk p (taken p s) :=
  (if_neg hdiff).trans (if_neg (not_not.mpr hrun))

end Branches

/-! ### A pixel equal to `prev` -/

/-- Settles O31: the run is below 62, so it grows by one without wrapping. -/
theorem equalPixelExtendsTheRun : Obligations.EqualPixelExtendsTheRun := by
  intro s source h hsource hrun hk
  have hsucc := toNat_run_succ (r := s.run) (by omega)
  have hfull : s.run + 1 ≠ 62 := fun hfull => hrun.ne (hsucc.symm.trans (congrArg BitVec.toNat hfull))
  have hsent : sent { taken s.prev (fed s source) with run := s.run + 1 } [] [] s.byteSink =
      counted s.prev (fed s source) := by
    simp [sent, counted, taken, fed, h.scratch]
  refine ⟨s.run + 1, hsucc, ?_⟩
  rw [step_takePixel h hsource, takePixel_counts (p := s.prev) (s := fed s source) rfl hfull hk.ne, ← hsent,
    pixelEncoded_sent h]

/-- Settles O32: the raised run is from 1 to 62, so its RUN byte is 0xC0 and the run before it. -/
theorem fullOrFinalRunIsFlushed : Obligations.FullOrFinalRunIsFlushed := by
  intro s source sink h hsource hrun hflush
  have hsucc := toNat_run_succ (r := s.run) (by omega)
  have hraised : s.run + 1 = 62 ∨ s.k + 1 = s.npix := hflush.imp_left fun h62 => BitVec.eq_of_toNat_eq (hsucc.trans h62)
  have hbytes : encRun (s.run + 1).toNat = [BitVec.ofNat 8 (0xC0 + s.run.toNat)] := by
    rw [hsucc, encRun_eq (by omega) hrun, Nat.add_sub_cancel]
  rw [step_takePixel h hsource, takePixel_flushes (p := s.prev) (s := fed s source) rfl hraised,
    resumePixel_repeat (p := s.prev) (s := loadRun (counted s.prev (fed s source))) rfl, ← hbytes]
  refine ⟨fun hs => ?_, fun e hs => ?_⟩
  · rw [emitRun_accepted (s := counted s.prev (fed s source)) hs, ← pixelEncoded_sent h s.prev]
    rfl
  · have hcount : s.run + 1 = BitVec.ofNat 6 (s.run.toNat + 1) := by
      rw [← hsucc, BitVec.ofNat_toNat, BitVec.setWidth_eq]
    rw [emitRun_refused (s := counted s.prev (fed s source)) hs, ← hcount]
    rfl

/-! ### A pixel that differs from `prev` -/

/-- The bytes of the run pending before a pixel, if there is one (R110). -/
def flushBytes (run : BitVec 6) : List Byte := if run.toNat = 0 then [] else encRun run.toNat

theorem flushBytes_eq {run : BitVec 6} (h : run.toNat ≤ 62) :
    flushBytes run = if run.toNat = 0 then [] else [BitVec.ofNat 8 (0xC0 + (run.toNat - 1))] :=
  ite_congr rfl (fun _ => rfl) fun hpos => encRun_eq (Nat.one_le_iff_ne_zero.mpr hpos) h

section Differs

variable {s : State} {p : Pixel} {e : Config.IoErrT} {sink : List OutAnswer}

/-- The state in which `p` is in flight and nothing is pending before its chunk (R110). -/
def afterFlush (p : Pixel) (s : State) (sink : List OutAnswer) : State :=
  sent { taken p s with run := 0 } (flushBytes s.run) [] sink

/-- Where the bytes of a pending run are accepted, the pixel's chunk comes next (R110). -/
theorem takePixel_flushed (hdiff : p ≠ s.prev)
    (hs : s.byteSink = List.replicate (flushBytes s.run).length .ok ++ sink) :
    takePixel p s = beginChunk p (afterFlush p s sink) := by
  by_cases hrun : s.run.toNat = 0
  · have hzero : s.run = 0 := BitVec.eq_of_toNat_eq hrun
    rw [afterFlush, flushBytes, if_pos hrun]
    rw [flushBytes, if_pos hrun] at hs
    have hsink : s.byteSink = sink := hs
    rw [takePixel_idle hdiff hzero, beginChunk, beginChunk, sent, ← hsink, ← hzero, List.append_nil]
    rfl
  · have hpending : s.run ≠ 0 := fun hzero => hrun (congrArg BitVec.toNat hzero)
    rw [afterFlush, flushBytes, if_neg hrun]
    rw [flushBytes, if_neg hrun] at hs
    rw [takePixel_pending hdiff hpending, resumePixel_pending (s := loadRun (taken p s)) hdiff hpending,
      emitRun_accepted (s := taken p s) hs]
    rfl

/-- A refused byte of the pending run stops the step before anything of the pixel is written (R121). -/
theorem takePixel_flush_refused (hdiff : p ≠ s.prev) (hrun : s.run.toNat ≠ 0) (hs : s.byteSink = .ioErr e :: sink) :
    takePixel p s = raiseIo e s.opos { taken p s with scratch := flushBytes s.run, byteSink := sink } := by
  have hpending : s.run ≠ 0 := fun hzero => hrun (congrArg BitVec.toNat hzero)
  rw [takePixel_pending hdiff hpending, resumePixel_pending (s := loadRun (taken p s)) hdiff hpending,
    emitRun_refused (s := taken p s) hs, flushBytes, if_neg hrun]
  rfl

/-- A refused byte of the pixel's chunk stops the step after those of the pending run (R121, R129). -/
theorem takePixel_chunk_refused {m : Nat} (hdiff : p ≠ s.prev) (hm : m < (chosenBytes s.prev s.cache p).length)
    (hs : s.byteSink = List.replicate (flushBytes s.run).length .ok ++ (List.replicate m .ok ++ .ioErr e :: sink)) :
    takePixel p s = raiseIo e (s.opos + ((flushBytes s.run).length + m))
      { taken p s with
        run := 0, byteSink := sink, opos := s.opos + ((flushBytes s.run).length + m),
        written := s.written ++ (flushBytes s.run ++ (chosenBytes s.prev s.cache p).take m),
        scratch := (chosenBytes s.prev s.cache p).drop m } := by
  have hlen : (flushBytes s.run ++ (chosenBytes s.prev s.cache p).take m).length = (flushBytes s.run).length + m := by
    rw [List.length_append, List.length_take_of_le hm.le]
  have hrefused : beginChunk p (afterFlush p s (List.replicate m .ok ++ .ioErr e :: sink)) =
      raiseIo e (s.opos + (flushBytes s.run).length + m)
        (sent (afterFlush p s (List.replicate m .ok ++ .ioErr e :: sink)) ((chosenBytes s.prev s.cache p).take m)
          ((chosenBytes s.prev s.cache p).drop m) sink) :=
    beginChunk_refused (s := afterFlush p s _) hm rfl
  rw [takePixel_flushed hdiff hs, hrefused, afterFlush, sent_sent, sent, hlen, Nat.add_assoc]
  rfl

end Differs

/-- Settles O33: the pending run and the chosen chunk are accepted one after the other. -/
theorem differentPixelIsWrittenInPriorityOrder : Obligations.DifferentPixelIsWrittenInPriorityOrder := by
  intro s p source sink h hdiff hrun hsource flush bytes hs
  have hflush : flushBytes s.run = flush := flushBytes_eq hrun
  have hbytes : flushBytes s.run ++ chosenBytes s.prev s.cache p = bytes := congrArg (· ++ _) hflush
  refine ⟨cacheWrite s.cache p, writesHashSlot_cacheWrite s.cache p, ?_⟩
  rw [List.length_append, List.replicate_add, List.append_assoc, ← hflush] at hs
  rw [step_takePixel h hsource, takePixel_flushed (s := fed s source) hdiff hs, beginChunk_accepted rfl, afterFlush,
    sent_sent, ← pixelEncoded_sent h p, ← hbytes]
  rfl

/-- Settles O34: the refused byte is that of the pending run, or one of the chosen chunk after it. -/
theorem refusedByteLeavesPrevAndCache : Obligations.RefusedByteLeavesPrevAndCache := by
  intro s p source sink j e h hdiff hrun hsource flush bytes hj hs
  have hflush : flushBytes s.run = flush := flushBytes_eq hrun
  rw [step_takePixel h hsource]
  refine congrArg Host.Outcome.next ?_
  by_cases hbefore : j < flush.length
  · have hpending : s.run.toNat ≠ 0 := fun h0 => by simp [flush, h0] at hbefore
    have hlen : flush.length = 1 := by simp [flush, hpending]
    obtain rfl : j = 0 := by omega
    rw [takePixel_flush_refused (s := fed s source) hdiff hpending hs, if_pos hbefore, ← hflush, List.take_zero,
      List.append_nil]
    rfl
  · obtain ⟨m, rfl⟩ := Nat.exists_eq_add_of_le (Nat.not_lt.mp hbefore)
    have hm : m < (chosenBytes s.prev s.cache p).length := by
      rw [List.length_append] at hj
      omega
    have hcleared : (if flush.length + m = 0 then s.run else 0) = 0 := by
      split
      · next h0 =>
        have hidle : s.run.toNat = 0 := by
          by_contra hpending
          simp [flush, hpending] at h0
        exact BitVec.eq_of_toNat_eq hidle
      · rfl
    rw [List.replicate_add, List.append_assoc, ← hflush] at hs
    rw [takePixel_chunk_refused (s := fed s source) hdiff hm hs, hcleared, if_neg hbefore, List.take_length_add_append,
      List.drop_length_add_append, ← hflush]
    rfl

end Sys2Proof.Machine
end

section
/-! PROOFS. The two ends of an ENCODE: the option check of its start (R106), and its end marker byte by byte (R71,
R105). -/

namespace Sys2Proof.Machine

open Sys2Proof.Statements

/-! ### The option check -/

/-- A dimension is refused outside 1 to `2^32 - 1`, as a signed number (R106). -/
theorem not_legalDimension_iff (w : Word64) : ¬ legalDimension w = true ↔ w.toInt ≤ 0 ∨ w.toInt ≥ 2 ^ 32 := by
  simp only [legalDimension, Bool.and_eq_true, decide_eq_true_eq]
  omega

/-- The mask names the refused dimensions, WIDTH in bit 0 and HEIGHT in bit 1 (R106). -/
theorem encodeGeometryMask_eq (w h : Word64) :
    encodeGeometryMask w h =
      (if w.toInt ≤ 0 ∨ w.toInt ≥ 2 ^ 32 then 1 else 0) + (if h.toInt ≤ 0 ∨ h.toInt ≥ 2 ^ 32 then 2 else 0) := by
  simp only [← not_legalDimension_iff, ite_not, encodeGeometryMask]

/-- An accepted dimension is the same number read as signed and as unsigned (R106). -/
theorem toInt_of_legalDimension {w : Word64} (h : legalDimension w = true) : w.toInt = w.toNat := by
  obtain ⟨-, hlt⟩ := legalDimension_bounds h
  exact BitVec.toInt_eq_toNat_of_lt (by omega)

/-- Settles O29: one test for each option, in the order of the check. -/
theorem encodeOptionsAreCheckedInOrder : Obligations.EncodeOptionsAreCheckedInOrder := by
  intro s v rest hhost hquiet hv started mask
  have hmask : encodeGeometryMask s.width s.height = mask := encodeGeometryMask_eq s.width s.height
  have hstart : step s = .next (checkOptions started) := by
    rw [step_hostAct hhost (by simp), hostAct,
      writeReg_cmd (s := { s with host := rest }) v (not_busy_of_quiescent hquiet), cmd_ofCode v .encode hv]
    rfl
  rw [hstart, checkOptions]
  refine congrArg Host.Outcome.next (ite_congr (congrArg (· ≠ 0) hmask) (fun _ => ?_) fun hgood =>
    ite_congr ?_ (fun _ => rfl) fun _ => ite_congr ?_ (fun _ => rfl) fun _ => ?_)
  · rw [← hmask]
    rfl
  · rw [← legalChannels_iff, Bool.not_eq_true]
  · rw [← legalColorspace_iff, Bool.not_eq_true]
  · obtain ⟨hw, hh⟩ := encodeGeometryMask_eq_zero (hmask.trans (not_not.mp hgood))
    have hnpix : (s.width.toInt * s.height.toInt).toNat = s.width.toNat * s.height.toNat := by
      rw [toInt_of_legalDimension hw, toInt_of_legalDimension hh, ← Int.natCast_mul, Int.toNat_natCast]
    rw [hnpix]

/-! ### The end marker -/

/-- The block writes an end marker, with a silent host. -/
structure WritesMarker (s : State) : Prop where
  host : s.host = []
  phase : s.phase = .encEnd

theorem WritesMarker.step_eq {s : State} (h : WritesMarker s) : step s = .next (encEndStep s) := by
  rw [step_silent h.host, blockStep, h.phase]

/-- The state after the first `j` bytes of the marker have been accepted. -/
def markerSent (s : State) (sink : List OutAnswer) (j : Nat) : State :=
  { s with byteSink := sink, opos := s.opos + j, written := s.written ++ endMarker.take j, markAt := j }

/-- The first `j + 1` bytes of a list are the first `j` and the one a step writes next (R88, R105). -/
theorem take_succ_getD {bytes : List Byte} {j : Nat} (hj : j < bytes.length) :
    bytes.take (j + 1) = bytes.take j ++ [bytes.getD j 0] := by
  rw [List.getD_eq_getElem _ _ hj, List.take_append_getElem]

/-- Byte `j` of the marker is accepted (R105). -/
theorem step_markerSent {s : State} {sink : List OutAnswer} {j : Nat} (h : WritesMarker s) (hj : j < 8) :
    step (markerSent s (.ok :: sink) j) =
      .next { markerSent s sink (j + 1) with phase := if j + 1 < 8 then s.phase else .done } := by
  rw [markerSent, markerSent, take_succ_getD (bytes := endMarker) hj, ← List.append_assoc]
  exact WritesMarker.step_eq ⟨h.host, h.phase⟩

/-- The bytes before the last one leave the block writing its marker. -/
theorem run_markerSent {s : State} (h : WritesMarker s) (hmark : s.markAt = 0) {j : Nat} (hj : j < 8)
    {sink : List OutAnswer} (hs : s.byteSink = List.replicate j .ok ++ sink) : runs j s (markerSent s sink j) := by
  induction j generalizing sink with
  | zero =>
    have hsink : s.byteSink = sink := hs
    have hsame : markerSent s sink 0 = s := by
      rw [markerSent, List.take_zero, List.append_nil, ← hsink, Nat.add_zero, ← hmark]
    rw [hsame]
    exact run_zero s
  | succ j ih =>
    rw [List.replicate_succ', List.append_assoc] at hs
    have hstep := step_markerSent (sink := sink) h (Nat.lt_of_succ_lt hj)
    rw [if_pos hj] at hstep
    exact run_trans (ih (Nat.lt_of_succ_lt hj) hs) (run_one hstep)

/-- Settles O35: seven bytes by induction, and then the last one, or a refusal at byte `j`. -/
theorem endMarkerIsWrittenLast : Obligations.EndMarkerIsWrittenLast := by
  intro s sink hhost hphase hmark marker
  have hwrites : WritesMarker s := ⟨hhost, hphase⟩
  refine ⟨fun hs => ?_, fun j e hj hs => ?_⟩
  · have hbefore := run_markerSent hwrites hmark (j := 7) (sink := .ok :: sink) (by decide) hs
    exact run_trans hbefore (run_one (step_markerSent hwrites (by decide)))
  · have hbefore := run_markerSent hwrites hmark hj hs
    have hstep : step (markerSent s (.ioErr e :: sink) j) = .next (raiseIo e (s.opos + j) (markerSent s sink j)) :=
      WritesMarker.step_eq ⟨hhost, hphase⟩
    exact run_trans hbefore (run_one hstep)

end Sys2Proof.Machine
end

section
/-! PROOFS. An ENCODE whose channels serve it at once completes: 14 header bytes, a step for each pixel, 8 marker bytes
(R105, R145). -/

namespace Sys2Proof.Machine

open Sys2Proof.Statements

/-! ### A sink that accepts -/

/-- The next `n` answers of the byte sink are acceptances. -/
def Serves (n : Nat) (answers : List OutAnswer) : Prop := ∃ sink, answers = List.replicate n .ok ++ sink

/-- A sink that accepts `j` bytes and then `n` has accepted any `i ≤ j` of them with `n` to go. -/
theorem Serves.split {i j n : Nat} {answers : List OutAnswer} (h : Serves (j + n) answers) (hij : i ≤ j) :
    ∃ sink, answers = List.replicate i .ok ++ sink ∧ Serves n sink := by
  obtain ⟨sink, rfl⟩ := h
  have hsum : j + n = i + (n + (j - i)) := by omega
  exact ⟨_, by rw [hsum, List.replicate_add, List.append_assoc], _, by rw [List.replicate_add, List.append_assoc]⟩

/-! ### The step of a pixel -/

/-- A pixel has at most the RUN chunk before it and a chunk of five bytes (R72, R110). -/
theorem flush_chosenBytes_length (run : BitVec 6) (prev : Pixel) (cache : Vector Pixel 64) (p : Pixel) :
    (flushBytes run ++ chosenBytes prev cache p).length ≤ 6 := by
  obtain ⟨-, hfive⟩ := encode_length_bounds (selectChunk prev cache p)
  have hflush : (flushBytes run).length ≤ 1 := by
    unfold flushBytes
    split <;> simp [encRun]
  rw [List.length_append, chosenBytes_eq]
  omega

/-- A pixel whose bytes are accepted is finished in one step, with at most 61 repeats pending (R107, R12). -/
theorem step_served {s : State} {p : Pixel} {source : List SourceOffer} {n : Nat} (h : AtPixel s)
    (hrun : s.run.toNat ≤ 61) (hk : s.k < s.npix) (hsource : s.pixelSource = .pixel p :: source)
    (hs : Serves (6 + n) s.byteSink) :
    ∃ sink bytes run cache, Serves n sink ∧ run.toNat ≤ 61 ∧
      step s = .next { afterStep s source sink bytes run with prev := p, cache := cache } := by
  by_cases heq : p = s.prev
  · subst heq
    by_cases hflush : s.run.toNat + 1 = 62 ∨ s.k + 1 = s.npix
    · obtain ⟨sink, hsink, hrest⟩ := hs.split (i := 1) (by omega)
      obtain ⟨hwritten, -⟩ := fullOrFinalRunIsFlushed s source sink h hsource (by omega) hflush
      exact ⟨sink, _, 0, s.cache, hrest, by decide, hwritten hsink⟩
    · obtain ⟨sink, hsink, hrest⟩ := hs.split (i := 0) (by omega)
      obtain ⟨run, hsucc, hstep⟩ := equalPixelExtendsTheRun s source h hsource (by omega) (by omega)
      exact ⟨s.byteSink, [], run, s.cache, hsink ▸ hrest, by omega, hstep⟩
  · obtain ⟨sink, hsink, hrest⟩ := hs.split (flush_chosenBytes_length s.run s.prev s.cache p)
    rw [flushBytes_eq (by omega)] at hsink
    obtain ⟨cache, -, hstep⟩ :=
      differentPixelIsWrittenInPriorityOrder s p source sink h heq (by omega) hsource hsink
    exact ⟨sink, _, 0, cache, hrest, by decide, hstep⟩

/-! ### The pixels -/

/-- An ENCODE of `total` pixels with `pixels` to take, and a sink that accepts their bytes and those of the end
marker. -/
structure Encodes (total : Nat) (pixels : List Pixel) (source : List SourceOffer) (s : State) : Prop where
  host : s.host = []
  phase : s.phase = if s.k < s.npix then .encChunks else .encEnd
  cur : s.cur = none
  scratch : s.scratch = []
  mark : s.markAt = 0
  run : s.run.toNat ≤ 61
  npix : s.npix = total
  count : s.k + pixels.length = total
  offers : s.pixelSource = pixels.map .pixel ++ source
  sink : Serves (6 * pixels.length + 8) s.byteSink

theorem Encodes.next {total : Nat} {p : Pixel} {pixels : List Pixel} {source : List SourceOffer} {s : State}
    (h : Encodes total (p :: pixels) source s) : ∃ t, step s = .next t ∧ Encodes total pixels source t := by
  have hcount : s.k + (pixels.length + 1) = total := h.count
  have hk : s.k < s.npix := by
    rw [h.npix]
    omega
  have hsix : 6 * (p :: pixels).length + 8 = 6 + (6 * pixels.length + 8) := by
    rw [List.length_cons]
    omega
  obtain ⟨sink, bytes, run, cache, hsink, hrun, hstep⟩ :=
    step_served ⟨h.host, h.phase.trans (if_pos hk), h.cur, h.scratch⟩ h.run hk h.offers (hsix ▸ h.sink)
  exact ⟨_, hstep, h.host, rfl, h.cur, h.scratch, h.mark, hrun, h.npix, (Nat.add_right_comm _ _ _).trans hcount, rfl,
    hsink⟩

/-- A step for each pixel and 8 for the marker, and the ENCODE is done. -/
theorem Encodes.completes {total : Nat} {pixels : List Pixel} {source : List SourceOffer} {s : State}
    (h : Encodes total pixels source s) :
    ∃ t, runs (8 + pixels.length) s t ∧ t.phase = .done ∧ t.k = total ∧ t.pixelSource = source := by
  induction pixels generalizing s with
  | nil =>
    have hk : s.k = total := h.count
    obtain ⟨sink, hsink⟩ := h.sink
    obtain ⟨hwritten, -⟩ :=
      endMarkerIsWrittenLast s sink h.host (h.phase.trans (if_neg (by rw [hk, h.npix]; omega))) h.mark
    exact ⟨_, hwritten hsink, rfl, hk, h.offers⟩
  | cons p pixels ih =>
    obtain ⟨t, hstep, ht⟩ := h.next
    obtain ⟨u, hrun, hdone⟩ := ih ht
    exact ⟨u, run_step hstep hrun, hdone⟩

/-- A started ENCODE has its header accepted and its pixels before it (R105). -/
theorem encodes_of_fresh {s : State} {pixels : List Pixel} {source : List SourceOffer} (h : FreshEncode s)
    (hlen : pixels.length = s.npix) (hsource : s.pixelSource = pixels.map .pixel ++ source)
    (hsink : Serves (14 + (6 * pixels.length + 8)) s.byteSink) :
    ∃ t, runs 14 s t ∧ Encodes s.npix pixels source t := by
  have hpos : s.k < s.npix := by
    rw [h.k, h.npix]
    exact Nat.mul_pos h.width.1 h.height.1
  obtain ⟨sink, hheader, hrest⟩ := hsink.split le_rfl
  obtain ⟨hwritten, -⟩ := headerBytesAreWrittenInOrder s sink h.host h.phase h.opos
  exact ⟨_, hwritten hheader, h.host, (if_pos hpos).symm, h.cur, h.scratch, h.markAt, Nat.zero_le 61, rfl,
    by rw [← hlen, h.k, Nat.zero_add], hsource, hrest⟩

/-- Settles O56: the header is written in 14 steps, and the pixels and the marker follow. -/
theorem encodeCompletesWhenItsChannelsServe : Obligations.EncodeCompletesWhenItsChannelsServe := by
  intro s pixels sink source h hlen hsource hsink
  have hbytes : 22 + 6 * s.npix = 14 + (6 * pixels.length + 8) := by omega
  have hsteps : 22 + s.npix = 14 + (8 + pixels.length) := by omega
  rw [hbytes] at hsink
  obtain ⟨t, hheader, ht⟩ := encodes_of_fresh h hlen hsource ⟨sink, hsink⟩
  obtain ⟨u, hrun, hdone⟩ := ht.completes
  exact ⟨u, hsteps ▸ run_trans hheader hrun, hdone⟩

end Sys2Proof.Machine
end

section
/-! PROOFS. Chunk streams as an encoder writes them, and their decoding: the pixels they stand for come back, with the
encoder's `prev` and cache (R119, R122, R123). -/

namespace Sys2Proof.Machine

open Sys2Proof.Statements

/-! ### Chunk streams -/

/-- The bytes of a chunk stream, the pixels they stand for, and `prev` and the cache after them. -/
structure Stream where
  bytes : List Byte
  pixels : List Pixel
  prev : Pixel
  cache : Vector Pixel 64

/-- Nothing has been written (R9, R11). -/
def Stream.start : Stream := ⟨[], [], Pixel.streamStart, Vector.replicate 64 Pixel.zero⟩

/-- Bytes follow whose first pixel is `p`, and then the cache is `cache`. -/
def Stream.push (x : Stream) (bytes : List Byte) (p : Pixel) (cache : Vector Pixel 64) : Stream :=
  ⟨x.bytes ++ bytes, x.pixels ++ [p], p, cache⟩

/-- The last pixel stands `n` more times (R92). -/
def Stream.again (x : Stream) (n : Nat) : Stream := { x with pixels := x.pixels ++ List.replicate n x.prev }

/-- A RUN chunk of `n` pixels follows (R98, R109). -/
def Stream.repeated (x : Stream) (n : Nat) : Stream := { x.again n with bytes := x.bytes ++ encRun n }

/-- The chunk chosen for `p` follows (R107, R117). -/
def Stream.followed (x : Stream) (p : Pixel) : Stream :=
  x.push (chosenBytes x.prev x.cache p) p (cacheWrite x.cache p)

/-- A stream an encoder can have written: RUN chunks and chosen chunks (R107). -/
inductive Coded : Stream → Prop
  | start : Coded .start
  | repeated {x : Stream} {n : Nat} (h : Coded x) (wf : (Instr.run n).wf = true) : Coded (x.repeated n)
  | followed {x : Stream} (h : Coded x) (p : Pixel) : Coded (x.followed p)

theorem Stream.push_nil (x : Stream) : x.push [] x.prev x.cache = x.again 1 := by
  simp [push, again]

theorem Stream.again_again (x : Stream) (m n : Nat) : (x.again m).again n = x.again (m + n) := by
  simp [again]

/-- A RUN chunk gives its first pixel and then its repeats (R98). -/
theorem Stream.push_again (x : Stream) (n : Nat) :
    (x.push (encRun (n + 1)) x.prev x.cache).again n = x.repeated (n + 1) := by
  simp [push, again, repeated, List.replicate_succ]

/-! ### The decoder inside a stream -/

/-- The state of a DECODE begun in `d` that has read the stream `x` and has `run` repeats of its last pixel pending
(R90, R98). -/
def decoded (d : State) (x : Stream) (run : BitVec 6) (input : List InAnswer) (sink : List SinkAnswer) : State :=
  { d with
    input := input, pixelSink := sink, pos := d.pos + x.bytes.length, k := d.k + x.pixels.length,
    emitted := d.emitted ++ x.pixels, prev := x.prev, cache := x.cache, run := run,
    phase := if d.k + x.pixels.length < d.npix then .decChunks else .decEnd }

section Decoder

variable {d : State} {x : Stream} {input : List InAnswer} {sink : List SinkAnswer}

/-- One more pixel `p` has been read from `bytes` and delivered. -/
theorem afterPixel_decoded (x : Stream) (run run' : BitVec 6) (before : List InAnswer) (given : List SinkAnswer)
    (bytes : List Byte) (p : Pixel) (cache : Vector Pixel 64) :
    { afterPixel (decoded d x run before given) bytes input sink p with cache := cache, run := run' } =
      decoded d (x.push bytes p cache) run' input sink := by
  simp [decoded, afterPixel, Stream.push, Nat.add_assoc]

/-- Between two chunks, the decoder is at a tag. -/
theorem atTag_decoded (h : AtTag d) (hk : d.k + x.pixels.length < d.npix) (input : List InAnswer)
    (sink : List SinkAnswer) : AtTag (decoded d x 0 input sink) :=
  ⟨h.host, if_pos hk, h.offer, rfl, h.scratch⟩

/-- A chunk that yields `p` takes the stream on to `p`. -/
theorem step_decoded_push {bytes : List Byte} {p : Pixel} {cache : Vector Pixel 64} {run : BitVec 6}
    (hyields : ∀ input sink, ChunkYields (decoded d x 0 input sink) bytes p cache run) :
    step (decoded d x 0 (bytesIn bytes ++ input) (.accept :: sink)) =
      .next (decoded d (x.push bytes p cache) run input sink) := by
  rw [hyields _ _ input sink rfl rfl, afterPixel_decoded]

/-- The chunk chosen for `p` gives `p` back (R119). -/
theorem step_decoded_followed (h : AtTag d) (p : Pixel) (hk : d.k + x.pixels.length < d.npix) :
    step (decoded d x 0 (bytesIn (chosenBytes x.prev x.cache p) ++ input) (.accept :: sink)) =
      .next (decoded d (x.followed p) 0 input sink) :=
  step_decoded_push fun input sink => chunkYields_of_write (atTag_decoded h hk input sink)
    (decode_chosenBytes x.prev x.cache p) fun rest => exec_selectChunk p (tagRead (decoded d x 0 input sink) _ rest)

/-- A RUN chunk gives its first pixel and leaves the others pending (R98). -/
theorem step_decoded_run (h : AtTag d) {n : Nat} (hwf : (Instr.run n).wf = true)
    (hk : d.k + x.pixels.length < d.npix) :
    step (decoded d x 0 (bytesIn (encRun n) ++ input) (.accept :: sink)) =
      .next (decoded d (x.push (encRun n) x.prev x.cache) (BitVec.ofNat 6 (n - 1)) input sink) :=
  step_decoded_push fun input sink => chunkYields_of_exec (atTag_decoded h hk input sink)
    (decodeInvertsEncode (.run n) [] hwf) fun _ => rfl

/-- A pending run gives the last pixel again, once for each repeat (R92). -/
theorem run_decoded_pending (h : AtTag d) {run : BitVec 6} {m : Nat} (hm : run.toNat = m)
    (hk : d.k + x.pixels.length + m ≤ d.npix) :
    runs m (decoded d x run input (List.replicate m .accept ++ sink)) (decoded d (x.again m) 0 input sink) := by
  induction m generalizing x run with
  | zero =>
    obtain rfl : run = 0 := BitVec.eq_of_toNat_eq hm
    have hsame : x.again 0 = x := by simp [Stream.again]
    rw [hsame]
    exact run_zero _
  | succ m ih =>
    have hrun : run ≠ 0 := fun hzero => by simp [hzero] at hm
    obtain ⟨run', hsucc, hstep⟩ := runContinuationReadsNothing
      (decoded d x run input (List.replicate (m + 1) .accept ++ sink)) (List.replicate m .accept ++ sink) h.host
      (if_pos (by omega)) h.offer hrun rfl
    have hnext : step (decoded d x run input (List.replicate (m + 1) .accept ++ sink)) =
        .next (decoded d (x.again 1) run' input (List.replicate m .accept ++ sink)) := by
      rw [hstep, ← x.push_nil, ← afterPixel_decoded]
      rfl
    have hpending : run'.toNat = m := Nat.succ.inj (hsucc.trans hm)
    have hrest := ih (x := x.again 1) hpending (by simp [Stream.again]; omega)
    rw [x.again_again, Nat.add_comm 1] at hrest
    exact run_step hnext hrest

/-- A RUN chunk gives all its pixels (R98, R92). -/
theorem run_decoded_repeated (h : AtTag d) {n : Nat} (hwf : (Instr.run n).wf = true)
    (hk : d.k + x.pixels.length + n ≤ d.npix) :
    runs n (decoded d x 0 (bytesIn (encRun n) ++ input) (List.replicate n .accept ++ sink))
      (decoded d (x.repeated n) 0 input sink) := by
  obtain ⟨h1, h62⟩ := wf_run_iff.mp hwf
  obtain ⟨m, rfl⟩ := Nat.exists_eq_add_of_le' h1
  have hpending : (BitVec.ofNat 6 m).toNat = m := by
    rw [BitVec.toNat_ofNat]
    omega
  have hrest := run_decoded_pending (x := x.push (encRun (m + 1)) x.prev x.cache) (input := input) (sink := sink) h
    hpending (by simp [Stream.push]; omega)
  rw [x.push_again] at hrest
  exact run_step (step_decoded_run h hwf (by omega)) hrest

end Decoder

theorem bytesIn_append (first second : List Byte) (rest : List InAnswer) :
    bytesIn (first ++ second) ++ rest = bytesIn first ++ (bytesIn second ++ rest) := by
  rw [bytesIn, List.map_append, List.append_assoc, bytesIn, bytesIn]

/-- The decoder of a stream an encoder has written gives its pixels, in as many steps (R122). -/
theorem Coded.run_decoded {x : Stream} (hx : Coded x) {d : State} (h : AtTag d) (hk : d.k + x.pixels.length ≤ d.npix)
    (input : List InAnswer) (sink : List SinkAnswer) :
    runs x.pixels.length
      (decoded d .start 0 (bytesIn x.bytes ++ input) (List.replicate x.pixels.length .accept ++ sink))
      (decoded d x 0 input sink) := by
  induction hx generalizing input sink with
  | start => exact run_zero _
  | @repeated x n hx hwf ih =>
    have hlen : (x.repeated n).pixels.length = x.pixels.length + n := by simp [Stream.repeated, Stream.again]
    have hbytes : bytesIn (x.repeated n).bytes ++ input = bytesIn x.bytes ++ (bytesIn (encRun n) ++ input) :=
      bytesIn_append x.bytes _ input
    rw [hlen] at hk ⊢
    rw [hbytes, List.replicate_add, List.append_assoc]
    exact run_trans (ih (by omega) _ _) (run_decoded_repeated h hwf (by omega))
  | @followed x hx p ih =>
    have hlen : (x.followed p).pixels.length = x.pixels.length + 1 := by simp [Stream.followed, Stream.push]
    have hbytes : bytesIn (x.followed p).bytes ++ input =
        bytesIn x.bytes ++ (bytesIn (chosenBytes x.prev x.cache p) ++ input) := bytesIn_append x.bytes _ input
    rw [hlen] at hk ⊢
    rw [hbytes, List.replicate_add, List.append_assoc]
    exact run_trans (ih (by omega) _ _) (run_one (step_decoded_followed h p (by omega)))

end Sys2Proof.Machine
end

section
/-! PROOFS. What an ENCODE has written, whatever delays its channels make: its header, a stream that stands for the
pixels it has taken, and its end marker (R105, R107, R119, R121). -/

namespace Sys2Proof.Machine

open Sys2Proof.Statements

/-! ### The bytes written and the pixels taken -/

/-- In an ENCODE begun in `s₀`, the bytes accepted are the header, the stream `x` and the bytes `part`, and the pixels
taken are those of `x`, the pending run and the pixels `ahead`. -/
structure Accounts (s₀ s : State) (x : Stream) (part : List Byte) (ahead : List Pixel) : Prop where
  coded : Coded x
  prev : x.prev = s.prev
  cache : x.cache = s.cache
  written : s.written = optionBytes s₀ ++ x.bytes ++ part
  taken : offered s₀.pixelSource =
    x.pixels ++ List.replicate s.run.toNat s.prev ++ ahead ++ offered s.pixelSource
  count : x.pixels.length + s.run.toNat + ahead.length = s.k + s.cur.toList.length

section Accounts

variable {s₀ s t : State} {x : Stream} {part : List Byte} {ahead : List Pixel}

/-- The fields the account is about. -/
def accountFields (s : State) := (s.prev, s.run, s.cache, s.k, s.cur, s.pixelSource, s.written)

theorem Accounts.congr (h : Accounts s₀ s x part ahead) (heq : accountFields t = accountFields s) :
    Accounts s₀ t x part ahead := by
  simp only [accountFields, Prod.mk.injEq] at heq
  obtain ⟨hprev, hrun, hcache, hk, hcur, hsource, hwritten⟩ := heq
  refine ⟨h.coded, ?_, ?_, ?_, ?_, ?_⟩
  · rw [hprev, h.prev]
  · rw [hcache, h.cache]
  · rw [hwritten, h.written]
  · rw [hrun, hprev, hsource, h.taken]
  · rw [hrun, hk, hcur, h.count]

/-- Bytes are accepted. -/
theorem Accounts.sent (h : Accounts s₀ s x part ahead) (bytes left : List Byte) (sink : List OutAnswer) :
    Accounts s₀ (sent s bytes left sink) x (part ++ bytes) ahead :=
  ⟨h.coded, h.prev, h.cache, by simp [Machine.sent, h.written], h.taken, h.count⟩

/-- The pending run is written (R109, R110). -/
theorem Accounts.runFlushed (h : Accounts s₀ s x [] ahead) (hwf : (Instr.run s.run.toNat).wf = true)
    (sink : List OutAnswer) : Accounts s₀ (runFlushed s sink) (x.repeated s.run.toNat) [] ahead where
  coded := h.coded.repeated hwf
  prev := h.prev
  cache := h.cache
  written := by simp [Machine.runFlushed, Machine.sent, Stream.repeated, h.written]
  taken := by simpa [Machine.runFlushed, Machine.sent, Stream.repeated, Stream.again, h.prev] using h.taken
  count := by simpa [Machine.runFlushed, Machine.sent, Stream.repeated, Stream.again] using h.count

/-- The chunk of the pixel ahead is written (R117). -/
theorem Accounts.writePixel {p : Pixel} (h : Accounts s₀ s x (chosenBytes s.prev s.cache p) [p]) (hrun : s.run = 0) :
    Accounts s₀ (writePixel p s) (x.followed p) [] [] where
  coded := h.coded.followed p
  prev := rfl
  cache := congrArg (cacheWrite · p) h.cache
  written := by simp [Stream.followed, Stream.push, h.written, h.prev, h.cache]
  taken := by simpa [Stream.followed, Stream.push, hrun] using h.taken
  count := by simpa [Stream.followed, Stream.push, hrun] using h.count

/-- The pixel in flight is finished (R105). -/
theorem Accounts.pixelEncoded {p : Pixel} (h : Accounts s₀ s x [] []) (hcur : s.cur = some p) :
    Accounts s₀ (pixelEncoded s) x [] [] :=
  ⟨h.coded, h.prev, h.cache, h.written, h.taken, by simpa [hcur] using h.count⟩

/-- A pixel that differs from `prev` is taken (R107). -/
theorem Accounts.takePixel {p : Pixel} {source : List SourceOffer} (h : Accounts s₀ s x [] []) (hcur : s.cur = none)
    (hsource : s.pixelSource = .pixel p :: source) : Accounts s₀ (Machine.taken p (fed s source)) x [] [p] where
  coded := h.coded
  prev := h.prev
  cache := h.cache
  written := h.written
  taken := by simpa [hsource, offered, Machine.taken, fed] using h.taken
  count := by simpa [hcur, Machine.taken, fed] using h.count

/-- A pixel equal to `prev` is taken and counted (R108). -/
theorem Accounts.counted {source : List SourceOffer} (h : Accounts s₀ s x [] []) (hcur : s.cur = none)
    (hsource : s.pixelSource = .pixel s.prev :: source) (hrun : s.run.toNat ≤ 61) :
    Accounts s₀ (counted s.prev (fed s source)) x [] [] where
  coded := h.coded
  prev := h.prev
  cache := h.cache
  written := h.written
  taken := by
    have hsucc : (Machine.counted s.prev (fed s source)).run.toNat = s.run.toNat + 1 := toNat_run_succ hrun
    rw [h.taken, hsource, hsucc, List.replicate_succ']
    simp [offered, Machine.counted, Machine.taken, fed]
  count := by
    have hsucc : (Machine.counted s.prev (fed s source)).run.toNat = s.run.toNat + 1 := toNat_run_succ hrun
    have hcount : x.pixels.length + s.run.toNat = s.k := by simpa [hcur] using h.count
    rw [hsucc, ← Nat.add_assoc, hcount]
    rfl

end Accounts

/-! ### The places of an ENCODE -/

/-- The header is being written, and nothing else has moved (R88). -/
structure HeaderSent (s₀ s : State) : Prop where
  written : s.written = (optionBytes s₀).take s.opos
  options : optionBytes s = optionBytes s₀
  source : s.pixelSource = s₀.pixelSource
  more : s.opos < headerLength
  k : s.k = 0
  positive : 0 < s.npix
  cur : s.cur = none
  scratch : s.scratch = []
  mark : s.markAt = 0

/-- No pixel is in flight (R107). -/
structure Between (s₀ s : State) (x : Stream) : Prop where
  acc : Accounts s₀ s x [] []
  cur : s.cur = none
  scratch : s.scratch = []
  run : s.run.toNat ≤ 61

/-- Pixel `p` is in flight: the run it ends, the run before it, or a part of its chunk is to be written (R109, R110,
R117). -/
inductive Flight (s₀ s : State) (p : Pixel) : Prop
  | repeats (x : Stream) (acc : Accounts s₀ s x [] []) (same : p = s.prev) (scratch : s.scratch = encRun s.run.toNat)
      (wf : (Instr.run s.run.toNat).wf = true)
  | pending (x : Stream) (acc : Accounts s₀ s x [] [p]) (differs : p ≠ s.prev)
      (scratch : s.scratch = encRun s.run.toNat) (wf : (Instr.run s.run.toNat).wf = true)
  | chunk (x : Stream) (part : List Byte) (acc : Accounts s₀ s x part [p]) (differs : p ≠ s.prev) (run : s.run = 0)
      (bytes : part ++ s.scratch = chosenBytes s.prev s.cache p)

/-- Every pixel is in the stream, and `j` bytes of the end marker are written (R105). -/
structure Marked (s₀ s : State) (j : Nat) (x : Stream) : Prop where
  acc : Accounts s₀ s x (endMarker.take j) []
  run : s.run = 0
  cur : s.cur = none
  k : s.k = s.npix

/-- What an ENCODE begun in `s₀` has done, phase by phase. -/
def ProgressAt (s₀ s : State) : Phase → Prop
  | .encHeader => HeaderSent s₀ s
  | .encChunks => s.k < s.npix ∧ s.markAt = 0 ∧ ((∃ x, Between s₀ s x) ∨ ∃ p, s.cur = some p ∧ Flight s₀ s p)
  | .encEnd => s.markAt < 8 ∧ ∃ x, Marked s₀ s s.markAt x
  | .done => ∃ x, Marked s₀ s 8 x
  | .error => True
  | .idle | .decHeader | .decChunks | .decEnd => False

/-- An ENCODE begun in `s₀`, with a silent host. -/
structure Progress (s₀ s : State) : Prop where
  host : s.host = []
  npix : s.npix = s₀.npix
  place : ProgressAt s₀ s s.phase

theorem progress_of_at {s₀ s : State} {p : Phase} (hhost : s.host = []) (hnpix : s.npix = s₀.npix) (hp : s.phase = p)
    (h : ProgressAt s₀ s p) : Progress s₀ s := ⟨hhost, hnpix, hp ▸ h⟩

/-- An error may come at any place. -/
theorem Raised.progress {s₀ u t : State} (h : Raised u t) (hhost : u.host = []) (hnpix : u.npix = s₀.npix) :
    Progress s₀ t := by
  cases h <;> exact ⟨hhost, hnpix, trivial⟩

/-! ### The steps of the chunk phase -/

/-- A pixel of the image is in flight. -/
structure Chunking (s₀ : State) (p : Pixel) (s : State) : Prop where
  host : s.host = []
  npix : s.npix = s₀.npix
  phase : s.phase = .encChunks
  more : s.k < s.npix
  mark : s.markAt = 0
  cur : s.cur = some p

/-- The fields that say a pixel is in flight. -/
def chunkingFields (s : State) := (s.host, s.npix, s.phase, s.k, s.markAt, s.cur)

theorem Chunking.congr {s₀ s t : State} {p : Pixel} (h : Chunking s₀ p s) (heq : chunkingFields t = chunkingFields s) :
    Chunking s₀ p t := by
  simp only [chunkingFields, Prod.mk.injEq] at heq
  obtain ⟨hhost, hnpix, hphase, hk, hmark, hcur⟩ := heq
  exact ⟨hhost.trans h.host, hnpix.trans h.npix, hphase.trans h.phase, by rw [hk, hnpix]; exact h.more,
    hmark.trans h.mark, hcur.trans h.cur⟩

section Chunks

variable {s₀ s : State} {x : Stream} {p : Pixel}

/-- A pixel is in flight until its bytes are written. -/
theorem progress_flight (hs : Chunking s₀ p s) (h : Flight s₀ s p) : Progress s₀ s :=
  progress_of_at hs.host hs.npix hs.phase ⟨hs.more, hs.mark, .inr ⟨p, hs.cur, h⟩⟩

/-- A finished pixel leaves the encoder between two pixels, or at its end marker (R105). -/
theorem progress_pixelEncoded (hs : Chunking s₀ p s) (h : Accounts s₀ s x [] []) (hscratch : s.scratch = [])
    (hrun : s.run = 0 ∨ s.run.toNat ≤ 61 ∧ s.k + 1 < s.npix) : Progress s₀ (pixelEncoded s) := by
  have hacc := h.pixelEncoded hs.cur
  by_cases hmore : s.k + 1 < s.npix
  · have hle : s.run.toNat ≤ 61 := hrun.elim (fun hzero => by simp [hzero]) And.left
    exact progress_of_at hs.host hs.npix ((if_pos hmore).trans hs.phase)
      ⟨hmore, hs.mark, .inl ⟨x, hacc, rfl, hscratch, hle⟩⟩
  · have hzero : s.run = 0 := hrun.resolve_right fun ⟨_, hk⟩ => hmore hk
    have hlast : s.k + 1 = s.npix := by
      have := hs.more
      omega
    have hmark : (pixelEncoded s).markAt = 0 := hs.mark
    refine progress_of_at (p := .encEnd) hs.host hs.npix (if_neg hmore) ?_
    rw [ProgressAt, hmark]
    exact ⟨by decide, x, hacc, hzero, rfl, hlast⟩

/-- The rest of a chunk is written, all of it or up to the byte the sink does not take (R117, R121). -/
theorem progress_continueChunk {part : List Byte} (hs : Chunking s₀ p s) (h : Accounts s₀ s x part [p])
    (hdiff : p ≠ s.prev) (hrun : s.run = 0) (hbytes : part ++ s.scratch = chosenBytes s.prev s.cache p) :
    Progress s₀ (continueChunk p s) := by
  have hleft (j : Nat) (sink : List OutAnswer) : Progress s₀ (sent s (s.scratch.take j) (s.scratch.drop j) sink) := by
    refine progress_flight (p := p) (hs.congr rfl)
      (.chunk x (part ++ s.scratch.take j) (h.sent _ _ _) hdiff hrun ?_)
    rw [sent, List.append_assoc, List.take_append_drop]
    exact hbytes
  unfold continueChunk
  rcases writeScratch_cases s.scratch s rfl with ⟨sink, -, hw⟩ | ⟨j, -, ⟨-, hw⟩ | ⟨sink, -, hw⟩ | ⟨e, sink, -, hw⟩⟩ <;>
    rw [hw]
  · have hacc := h.sent s.scratch [] sink
    rw [hbytes] at hacc
    exact progress_pixelEncoded (p := p) (hs.congr rfl) (hacc.writePixel hrun)
      rfl (.inl hrun)
  · exact hleft j []
  · exact hleft j sink
  · exact Raised.progress (.transport _ _) hs.host hs.npix

/-- The chunk of a pixel is written after the run before it (R110). -/
theorem progress_beginChunk (hs : Chunking s₀ p s) (h : Accounts s₀ s x [] [p]) (hdiff : p ≠ s.prev)
    (hrun : s.run = 0) : Progress s₀ (beginChunk p s) := by
  rw [beginChunk_eq]
  exact progress_continueChunk (x := x) (part := []) (hs.congr rfl)
    (h.congr rfl) hdiff hrun rfl

/-- The RUN chunk is written and the step goes on, or the pixel stays in flight (R109, R110). -/
theorem progress_emitRun (hs : Chunking s₀ p s) (hflight : ∀ sink, Flight s₀ { s with byteSink := sink } p)
    (hscratch : s.scratch = encRun s.run.toNat) {f : State → State}
    (hf : ∀ sink, Chunking s₀ p (runFlushed s sink) → Progress s₀ (f (runFlushed s sink))) :
    Progress s₀ ((emitRun s).andThen f) := by
  have hstays (sink : List OutAnswer) : Progress s₀ { s with byteSink := sink } :=
    progress_flight (p := p) (hs.congr rfl) (hflight sink)
  rcases emitRun_cases s hscratch with ⟨-, hw⟩ | ⟨sink, -, hw⟩ | ⟨sink, -, hw⟩ | ⟨e, sink, -, hw⟩ <;> rw [hw]
  · exact hstays s.byteSink
  · exact hstays sink
  · exact hf sink (hs.congr rfl)
  · exact Raised.progress (.transport _ _) hs.host hs.npix

/-- What the byte sink has still to answer is not of account. -/
theorem Flight.withSink (h : Flight s₀ s p) (sink : List OutAnswer) : Flight s₀ { s with byteSink := sink } p := by
  cases h with
  | repeats x acc same scratch wf =>
    exact .repeats x (acc.congr rfl) same scratch wf
  | pending x acc differs scratch wf =>
    exact .pending x (acc.congr rfl) differs scratch wf
  | chunk x part acc differs run bytes =>
    exact .chunk x part (acc.congr rfl) differs run bytes

theorem progress_resumePixel (hs : Chunking s₀ p s) (h : Flight s₀ s p) : Progress s₀ (resumePixel p s) := by
  have hstays := h.withSink
  cases h with
  | repeats x acc same scratch wf =>
    rw [resumePixel_repeat same]
    exact progress_emitRun hs hstays scratch fun sink hflushed =>
      progress_pixelEncoded hflushed (acc.runFlushed wf sink) rfl (.inl rfl)
  | pending x acc differs scratch wf =>
    have hrun : s.run ≠ 0 := fun hzero => by simp [hzero, Instr.wf] at wf
    rw [resumePixel_pending differs hrun]
    exact progress_emitRun hs hstays scratch fun sink hflushed =>
      progress_beginChunk hflushed (acc.runFlushed wf sink) differs rfl
  | chunk x part acc differs run bytes =>
    rw [resumePixel_idle differs run]
    exact progress_continueChunk hs acc differs run bytes

/-- A pixel is taken between two pixels (R107 to R110). -/
theorem progress_takePixel {source : List SourceOffer} (hs : Chunking s₀ p (taken p (fed s source)))
    (h : Between s₀ s x) (hsource : s.pixelSource = .pixel p :: source) :
    Progress s₀ (takePixel p (fed s source)) := by
  have hle := h.run
  by_cases heq : p = s.prev
  · subst heq
    have hsucc := toNat_run_succ hle
    have hacc := h.acc.counted h.cur hsource hle
    by_cases hflush : s.run + 1 = 62 ∨ s.k + 1 = s.npix
    · have hwf : (Instr.run (s.run + 1).toNat).wf = true := wf_run_iff.mpr (by omega)
      rw [takePixel_flushes (p := s.prev) (s := fed s source) rfl hflush]
      exact progress_resumePixel (hs.congr rfl) (.repeats x (hacc.congr rfl) rfl rfl hwf)
    · rw [not_or] at hflush
      obtain ⟨hfull, hlast⟩ := hflush
      have hk : s.k < s.npix := hs.more
      have hnotFull : (s.run + 1).toNat ≠ 62 := fun h62 => hfull (BitVec.eq_of_toNat_eq h62)
      have hbelow : (s.run + 1).toNat ≤ 61 := by omega
      have hmore : s.k + 1 < s.npix := by omega
      rw [takePixel_counts (p := s.prev) (s := fed s source) rfl hfull hlast]
      exact progress_pixelEncoded (p := s.prev) (hs.congr rfl) hacc h.scratch
        (.inr ⟨hbelow, hmore⟩)
  · have hacc := h.acc.takePixel h.cur hsource
    by_cases hrun : s.run = 0
    · rw [takePixel_idle (s := fed s source) heq hrun]
      exact progress_beginChunk hs hacc heq hrun
    · have hpos : s.run.toNat ≠ 0 := fun hzero => hrun (BitVec.eq_of_toNat_eq hzero)
      have hwf : (Instr.run s.run.toNat).wf = true := wf_run_iff.mpr (by omega)
      rw [takePixel_pending (s := fed s source) heq hrun]
      exact progress_resumePixel (hs.congr rfl) (.pending x (hacc.congr rfl) heq rfl hwf)

theorem progress_encChunksStep (h : Progress s₀ s) (hp : s.phase = .encChunks) : Progress s₀ (encChunksStep s) := by
  have hplace := h.place
  rw [hp] at hplace
  obtain ⟨hmore, hmark, ⟨x, hbetween⟩ | ⟨p, hcur, hflight⟩⟩ := hplace
  · have hnext : encChunksStep s = nextPixel s := by simp only [encChunksStep, hbetween.cur]
    rw [hnext, nextPixel]
    rcases hsource : s.pixelSource with _ | ⟨p | _, source⟩
    · exact h
    · exact progress_takePixel ⟨h.host, h.npix, hp, hmore, hmark, rfl⟩ hbetween hsource
    · refine progress_of_at h.host h.npix hp ⟨hmore, hmark, .inl ⟨x, ?_, hbetween.cur, hbetween.scratch, hbetween.run⟩⟩
      have hacc := hbetween.acc
      exact ⟨hacc.coded, hacc.prev, hacc.cache, hacc.written, by rw [hacc.taken, hsource]; rfl, hacc.count⟩
  · have hresume : encChunksStep s = resumePixel p s := by simp only [encChunksStep, hcur]
    rw [hresume]
    exact progress_resumePixel ⟨h.host, h.npix, hp, hmore, hmark, hcur⟩ hflight

end Chunks

/-! ### The header and the end marker -/

section Ends

variable {s₀ s : State}

/-- A write that is not accepted leaves the ENCODE at its place, or ends it (R46). -/
theorem WriteStops.progress {t : State} (h : WriteStops s t) (hs : Progress s₀ s)
    (hkept : ∀ sink, ProgressAt s₀ { s with byteSink := sink } s.phase) : Progress s₀ t := by
  cases h with
  | waits sink => exact ⟨hs.host, hs.npix, hkept sink⟩
  | fails sink raised => exact raised.progress hs.host hs.npix

/-- The header bytes are those of the options (R88). -/
theorem encHeaderStep_eq (s : State) :
    encHeaderStep s = (writeByte ((optionBytes s).getD s.opos 0) s).andThen headerByteWritten := rfl

theorem progress_encHeaderStep (h : Progress s₀ s) (hp : s.phase = .encHeader) : Progress s₀ (encHeaderStep s) := by
  have hplace := h.place
  rw [hp] at hplace
  have hbyte : (optionBytes s).getD s.opos 0 = (optionBytes s₀).getD s.opos 0 := by rw [hplace.options]
  have hlen : s.opos < (optionBytes s₀).length := hplace.more
  have htake : (optionBytes s₀).take (s.opos + 1) = s.written ++ [(optionBytes s).getD s.opos 0] := by
    rw [hplace.written, hbyte, take_succ_getD hlen]
  rw [encHeaderStep_eq]
  rcases writeByte_accepts_or_stops ((optionBytes s).getD s.opos 0) s with ⟨sink, hw⟩ | ⟨t, hw, hstop⟩ <;> rw [hw]
  · rw [Xfer.andThen, headerByteWritten]
    split
    · next hmore =>
      exact progress_of_at h.host h.npix hp { hplace with written := htake.symm, more := hmore }
    · next hlast =>
      have hall : (optionBytes s₀).take (s.opos + 1) = optionBytes s₀ := List.take_of_length_le (Nat.le_of_not_lt hlast)
      have hmore : s.k < s.npix := hplace.k ▸ hplace.positive
      have hcount : 0 = s.k + s.cur.toList.length := by rw [hplace.k, hplace.cur]; rfl
      refine progress_of_at (p := .encChunks) h.host h.npix rfl
        ⟨hmore, hplace.mark, .inl ⟨.start, ⟨.start, rfl, rfl, ?_, ?_, hcount⟩, hplace.cur, hplace.scratch, by simp⟩⟩
      · simpa [Stream.start, hall] using htake.symm
      · simp [Stream.start, hplace.source]
  · exact hstop.progress h fun sink => by
      rw [hp]
      exact { hplace with }

/-- One more byte of the end marker is written. -/
theorem Marked.succ {x : Stream} (h : Marked s₀ s s.markAt x) (hmark : s.markAt < 8) (sink : List OutAnswer) :
    Marked s₀ (markDone (sent s [endMarker.getD s.markAt 0] s.scratch sink)) (s.markAt + 1) x := by
  have hacc := h.acc.sent [endMarker.getD s.markAt 0] s.scratch sink
  rw [← take_succ_getD (bytes := endMarker) hmark] at hacc
  exact ⟨hacc.congr rfl, h.run, h.cur, h.k⟩

theorem progress_encEndStep (h : Progress s₀ s) (hp : s.phase = .encEnd) : Progress s₀ (encEndStep s) := by
  have hplace := h.place
  rw [hp] at hplace
  obtain ⟨hmark, x, hx⟩ := hplace
  unfold encEndStep
  rcases writeByte_accepts_or_stops (endMarker.getD s.markAt 0) s with ⟨sink, hw⟩ | ⟨t, hw, hstop⟩ <;> rw [hw]
  · have hnext := hx.succ hmark sink
    by_cases hmore : s.markAt + 1 < 8
    · exact progress_of_at h.host h.npix ((if_pos hmore).trans hp) ⟨hmore, x, hnext⟩
    · obtain hlast : s.markAt + 1 = 8 := by omega
      rw [hlast] at hnext
      exact progress_of_at (p := .done) h.host h.npix (if_neg hmore) ⟨x, hnext⟩
  · exact hstop.progress h fun sink => by
      rw [hp]
      exact ⟨hmark, x, hx.acc.congr rfl, hx.run, hx.cur, hx.k⟩

end Ends

/-! ### Every step -/

theorem progress_step {s₀ s t : State} (h : Progress s₀ s) (hs : step s = .next t) : Progress s₀ t := by
  have hplace := h.place
  rw [step_silent h.host, blockStep] at hs
  cases hp : s.phase <;> simp only [hp] at hs hplace
  case encHeader =>
    cases hs
    exact progress_encHeaderStep h hp
  case encChunks =>
    cases hs
    exact progress_encChunksStep h hp
  case encEnd =>
    cases hs
    exact progress_encEndStep h hp
  case done | error =>
    cases hs
    exact h
  all_goals exact hplace.elim

/-- Whatever delays its channels make, an ENCODE goes through those places only (R145). -/
theorem progress_runs {s₀ s t : State} {n : Nat} (h : Progress s₀ s) (hs : runs n s t) : Progress s₀ t := by
  induction n generalizing s with
  | zero =>
    rw [runs, run_zero] at hs
    cases hs
    exact h
  | succ n ih =>
    obtain ⟨u, hu⟩ := exists_step_of_silent h.host
    rw [runs, run_succ n hu] at hs
    exact ih (progress_step h hu) hs

theorem progress_of_fresh {s : State} (h : FreshEncode s) : Progress s s := by
  have hpositive : 0 < s.npix := h.npix ▸ Nat.mul_pos h.width.1 h.height.1
  exact progress_of_at h.host rfl h.phase
    ⟨by rw [h.written, h.opos]; rfl, rfl, rfl, by rw [h.opos]; decide, h.k, hpositive, h.cur, h.scratch, h.markAt⟩

/-- A completed ENCODE has written its header, a stream that stands for the image's pixels, and the end marker
(R105). -/
theorem stream_of_encode {s t : State} {n : Nat} (h : FreshEncode s) (hrun : runs n s t) (hdone : t.phase = .done) :
    ∃ x, Coded x ∧ x.prev = t.prev ∧ x.cache = t.cache ∧ t.written = optionBytes s ++ x.bytes ++ endMarker ∧
      x.pixels = (offered s.pixelSource).take s.npix ∧ x.pixels.length = s.npix := by
  have hprogress := progress_runs (progress_of_fresh h) hrun
  have hplace := hprogress.place
  rw [hdone] at hplace
  obtain ⟨x, hacc, hr, hcur, hk⟩ := hplace
  have hlen : x.pixels.length = s.npix := by
    simpa [hr, hcur, hk, hprogress.npix] using hacc.count
  have htaken : offered s.pixelSource = x.pixels ++ offered t.pixelSource := by
    simpa [hr] using hacc.taken
  exact ⟨x, hacc.coded, hacc.prev, hacc.cache, hacc.written, by rw [htaken, ← hlen, List.take_left], hlen⟩

end Sys2Proof.Machine
end

section
/-! PROOFS. Decoding an encoded image gives it back (R122, R123, R102, R84). -/

namespace Sys2Proof.Machine

open Sys2Proof.Statements

/-! ### The header read back -/

/-- A dimension below `2^32` is read back from its four bytes (R48, R81, R88). -/
theorem bigEndian_extractLsb' {w : Word64} (h : w.toNat < 2 ^ 32) :
    bigEndian (w.extractLsb' 24 8) (w.extractLsb' 16 8) (w.extractLsb' 8 8) (w.extractLsb' 0 8) = w.toNat := by
  simp only [bigEndian, extractLsb'_eight, BitVec.toNat_ofNat]
  omega

/-- The state of a DECODE begun in `d` that has read the header written for the options of `s`. -/
def optionsRead (s d : State) (rest : List InAnswer) : State :=
  { d with
    input := rest, pos := 14, width := s.width, height := s.height, channels := s.channels,
    colorspace := s.colorspace }

/-- A DECODE of the header an ENCODE writes finds its options, and checks the geometry (R79 to R84). -/
theorem run_optionBytes {s d : State} {rest : List InAnswer} (hs : FreshEncode s) (hd : FreshDecode .decode d)
    (hi : d.input = bytesIn (optionBytes s) ++ rest) : runs 14 d (headerComplete (optionsRead s d rest)) := by
  have hrun := run_headerComplete hd hs.channels hs.colorspace hi
  rw [bigEndian_extractLsb' hs.width.2, bigEndian_extractLsb' hs.height.2, formatRead, headerRead, BitVec.ofNat_toNat,
    BitVec.ofNat_toNat, BitVec.setWidth_eq, BitVec.setWidth_eq] at hrun
  exact hrun

/-- The only condition an encoded geometry can fail is the limit (R84, R106). -/
theorem decodeGeometryMask_of_fresh {s : State} (h : FreshEncode s) (m : Nat) :
    decodeGeometryMask m s.width.toNat s.height.toNat = if m < s.npix then 4 else 0 := by
  simp [decodeGeometryMask, h.width.1.ne', h.height.1.ne', h.npix]

/-! ### The stream and the end marker read back -/

/-- A DECODE before its first chunk, with the stream `x` of its whole image and an end marker before it (R90). -/
structure AtStream (e : State) (x : Stream) (rest : List InAnswer) (sink : List SinkAnswer) : Prop where
  tag : AtTag e
  prev : e.prev = Pixel.streamStart
  cache : e.cache = Vector.replicate 64 Pixel.zero
  k : e.k = 0
  mark : e.markAt = 0
  positive : 0 < e.npix
  npix : x.pixels.length = e.npix
  input : e.input = bytesIn x.bytes ++ (bytesIn endMarker ++ rest)
  pixelSink : e.pixelSink = List.replicate x.pixels.length .accept ++ sink

section AtStream

variable {e : State} {x : Stream} {rest : List InAnswer} {sink : List SinkAnswer}

/-- Before the first chunk the stream read is empty (R9, R11, R13). -/
theorem AtStream.decoded_start (h : AtStream e x rest sink) : decoded e .start 0 e.input e.pixelSink = e := by
  have hphase : (if e.k < e.npix then Phase.decChunks else .decEnd) = e.phase :=
    (if_pos (h.k ▸ h.positive)).trans h.tag.phase.symm
  have hrun : (0 : BitVec 6) = e.run := h.tag.run.symm
  simp only [decoded, Stream.start, List.length_nil, Nat.add_zero, List.append_nil, hphase, hrun, ← h.prev, ← h.cache]

/-- The state after the stream and the end marker have been read (R102). -/
def imageDecoded (e : State) (x : Stream) (rest : List InAnswer) (sink : List SinkAnswer) : State :=
  { decoded e x 0 rest sink with pos := e.pos + x.bytes.length + 8, markAt := 8, phase := .done }

/-- The image is decoded, a step for each pixel and each byte of the marker (R90, R100). -/
theorem AtStream.run_imageDecoded (h : AtStream e x rest sink) (hx : Coded x) :
    runs (x.pixels.length + 8) e (imageDecoded e x rest sink) := by
  have hall : e.k + x.pixels.length = e.npix := by rw [h.k, h.npix, Nat.zero_add]
  have hpixels := hx.run_decoded h.tag hall.le (bytesIn endMarker ++ rest) sink
  rw [← h.input, ← h.pixelSink, h.decoded_start] at hpixels
  obtain ⟨hmarker, -⟩ := endMarkerIsCheckedByteByByte (decoded e x 0 (bytesIn endMarker ++ rest) sink) rest h.tag.host
    (if_neg (by omega)) h.mark
  exact run_trans hpixels (hmarker rfl)

end AtStream

/-- Settles O57: the DECODE reads the header back, and then the stream and the marker, or fails on the limit. -/
theorem decodingAnEncodedImageGivesItBack : Obligations.DecodingAnEncodedImageGivesItBack := by
  intro n s t d rest sink hs hrun hdone hd hinput hsink
  obtain ⟨x, hx, hprev, hcache, hwritten, hpixels, hlen⟩ := stream_of_encode hs hrun hdone
  rw [hwritten, bytesIn_append, bytesIn_append] at hinput
  have hheader := run_optionBytes hs hd hinput
  have hmask := decodeGeometryMask_of_fresh hs d.maxPixels
  refine ⟨fun hlimit => ?_, fun hlimit => ?_⟩
  · rw [if_neg (Nat.not_lt.mpr hlimit)] at hmask
    have hop : d.op ≠ .decodeConfig := by simp [hd.op]
    have hstream : AtStream (headerComplete (optionsRead s d (bytesIn x.bytes ++ (bytesIn endMarker ++ rest)))) x rest
        sink := by
      rw [headerComplete_stream (s := optionsRead s d _) hmask hop]
      exact ⟨⟨hd.host, rfl, hd.offer, rfl, hd.scratch⟩, rfl, rfl, hd.k, hd.markAt, Nat.mul_pos hs.width.1 hs.height.1,
        hlen.trans hs.npix, rfl, hlen ▸ hsink⟩
    have himage := run_trans hheader (hstream.run_imageDecoded hx)
    rw [headerComplete_stream (s := optionsRead s d _) hmask hop] at himage
    have hemitted : d.emitted ++ x.pixels = x.pixels := by rw [hd.emitted, List.nil_append]
    refine ⟨_, _, himage, rfl, rfl, rfl, rfl, rfl, hemitted.trans hpixels, ?_, hprev, hcache, ?_, rfl⟩
    · exact (congrArg List.length hemitted).trans hlen
    · rw [hwritten, List.length_append, List.length_append]
      rfl
  · rw [if_pos hlimit] at hmask
    have hne : decodeGeometryMask d.maxPixels s.width.toNat s.height.toNat ≠ 0 := by rw [hmask]; decide
    rw [headerComplete_bad (s := optionsRead s d _) hne] at hheader
    exact ⟨14, _, hheader, rfl, rfl, congrArg (BitVec.ofNat 64) hmask, hd.emitted⟩

end Sys2Proof.Machine
end

section
/-! PROOFS. Every step has a next state, BAD_TAG is never raised, a quiescent block does nothing, and a block whose channel
is silent waits (R132, R143, R145). -/

namespace Sys2Proof.Machine

open Sys2Proof.Statements

/-! ### Every state has a next state -/

theorem exists_blockStep (s : State) : ∃ t, blockStep s = .next t := by
  obtain ⟨t, ht, -⟩ := blockStep_moves s
  exact ⟨t, ht⟩

/-- Settles O42: the host's action, where there is one, is a next state, and so is each move of the block. -/
theorem everyStepAnswersANextState : Obligations.EveryStepAnswersANextState := by
  intro s
  unfold step machineStep
  split
  · exact exists_blockStep s
  · exact exists_blockStep _
  · exact ⟨_, rfl⟩

/-! ### BAD_TAG -/

theorem BlockMove.errCode_ne_badTag {s t : State} (hs : s.errCode ≠ .badTag) (h : BlockMove s t) :
    t.errCode ≠ .badTag := by
  rcases h.record with ⟨⟨hcode, -⟩, -⟩ | ⟨-, hfailed⟩
  · rwa [hcode]
  · rcases hfailed.record with ⟨-, hne, -⟩ | ⟨e, hio, -⟩
    · exact hne
    · simp [hio]

theorem HostMove.errCode_ne_badTag {s t : State} (hs : s.errCode ≠ .badTag) (h : HostMove s t) :
    t.errCode ≠ .badTag := by
  cases h with
  | connects | options => exact hs
  | startsDecode | startsEncode | resets => exact ErrCode.noConfusion
  | optionError code info error => exact error.2.1

/-- Settles O43: no move of the block and none of the host records BAD_TAG. -/
theorem badTagIsNeverRaised : Obligations.BadTagIsNeverRaised := fun _ _ hstep =>
  not_imp_not.mp fun hs => step_establishes (P := fun s => s.errCode ≠ .badTag) (Q := fun t => t.errCode ≠ .badTag)
    (fun _ _ h => h) (fun _ _ => BlockMove.errCode_ne_badTag) (fun _ _ => HostMove.errCode_ne_badTag) hs hstep

/-! ### The quiescent phases -/

/-- A state that a step leaves as it is stays for any number of steps. -/
theorem runs_of_step_self {s : State} (h : step s = .next s) (n : Nat) : runs n s s := by
  induction n with
  | zero => exact run_zero s
  | succ n ih => exact run_step h ih

theorem step_quiescent {s : State} (hhost : s.host = []) (hphase : QuiescentPhase s.phase) : step s = .next s := by
  rw [step_silent hhost, blockStep]
  rcases hphase with hp | hp | hp <;> rw [hp]

/-- Settles O41: a step of a quiescent block is the identity. -/
theorem quiescentBlockDoesNothing : Obligations.QuiescentBlockDoesNothing :=
  fun n _ hhost hphase => runs_of_step_self (step_quiescent hhost hphase) n

/-! ### Silent channels -/

theorem readByte_silent {s : State} (h : s.input = []) : readByte s = .stop s := by rw [readByte, h]

theorem writeByte_silent {s : State} (b : Byte) (h : s.byteSink = []) : writeByte b s = .stop s := by rw [writeByte, h]

theorem fetchChunk_silent {s : State} (hc : chunkComplete s.scratch = false) (h : s.input = []) :
    fetchChunk s = .stop s := by
  simp only [fetchChunk, fetchBytes, hc, Bool.false_eq_true, if_false, readByte_silent h]

theorem writeScratch_silent {s : State} (hscratch : s.scratch ≠ []) (h : s.byteSink = []) :
    writeScratch s.scratch s = .stop s := by
  obtain ⟨b, bytes, hb⟩ := List.exists_cons_of_ne_nil hscratch
  rw [hb, writeScratch, writeByte_silent b h]

theorem emitRun_silent {s : State} (hscratch : s.scratch ≠ []) (h : s.byteSink = []) : emitRun s = .stop s := by
  rw [emitRun, writeScratch_silent hscratch h]

theorem resumePixel_silent {s : State} (p : Pixel) (hscratch : s.scratch ≠ []) (h : s.byteSink = []) :
    resumePixel p s = s := by
  rw [resumePixel, emitRun_silent hscratch h, continueChunk, writeScratch_silent hscratch h]
  split_ifs <;> rfl

/-- Settles O23: in each phase the request to the silent channel ends the step in the state it began with. -/
theorem silentChannelHoldsTheBlock : Obligations.SilentChannelHoldsTheBlock := by
  intro s hhost
  rw [step_silent hhost, blockStep]
  refine ⟨?_, ?_, ?_, ?_, ?_, ?_⟩
  · rintro (hp | hp) hinput
    · simp only [hp, decHeaderStep, readByte_silent hinput]
    · simp only [hp, decEndStep, readByte_silent hinput]
  · intro hp hoffer hsink
    simp only [hp, decChunksStep, hoffer, if_true, emitPixel, hsink]
  · intro hp hoffer hrun hc hinput
    simp only [hp, decChunksStep, hoffer, hrun, fetchChunk_silent hc hinput, Bool.false_eq_true, ne_eq, not_true,
      if_false]
  · rintro (hp | hp) hsink
    · simp only [hp, encHeaderStep, writeByte_silent _ hsink, Xfer.andThen]
    · simp only [hp, encEndStep, writeByte_silent _ hsink, Xfer.andThen]
  · intro hp hcur hsource
    simp only [hp, encChunksStep, hcur, nextPixel, hsource]
  · intro p hp hcur hscratch hsink
    simp only [hp, encChunksStep, hcur, resumePixel_silent p hscratch hsink]

end Sys2Proof.Machine
end

section
/-! PROOFS. Where an error is recorded: a failed read at `pos`, a refused write at `opos`, each with the other offset where
it was (R127, R128, R129). -/

namespace Sys2Proof.Machine

open Sys2Proof.Statements

/-! ### The ways a step can end -/

/-- How a step that began in `s` ends: in another phase than ERROR, or with an error whose place is known. -/
inductive StepEnd (s : State) : State → Prop
  | alive {t : State} (phase : t.phase ≠ .error) : StepEnd s t
  /-- A check has failed (R80, R82 to R84, R100). -/
  | check (code : ErrCode) (offset : Nat) (info : Word64) (u : State) (checks : code ≠ .truncated ∧ code ≠ .ioError) :
      StepEnd s (raise code offset info u)
  /-- The input ended (R41). -/
  | ended (u : State) (opos : u.opos = s.opos) : StepEnd s (raise .truncated u.pos 0 u)
  /-- A read failed (R41). -/
  | unread (e : Config.IoErrT) (u : State) (opos : u.opos = s.opos) : StepEnd s (raiseIo e u.pos u)
  /-- A write was refused (R46, R129). -/
  | refused (e : Config.IoErrT) (u : State) (pos : u.pos = s.pos) : StepEnd s (raiseIo e u.opos u)

theorem StepEnd.truncated {s t : State} (h : StepEnd s t) (hp : t.phase = .error) (hcode : t.errCode = .truncated) :
    t.errOffset = BitVec.ofNat 64 t.pos ∧ t.errInfo = 0 ∧ t.opos = s.opos := by
  cases h with
  | alive phase => exact absurd hp phase
  | check code offset info u checks => exact absurd hcode checks.1
  | ended u opos => exact ⟨rfl, rfl, opos⟩
  | unread | refused => cases hcode

theorem StepEnd.ioError {s t : State} (h : StepEnd s t) (hp : t.phase = .error) (hcode : t.errCode = .ioError) :
    ∃ e, t.ioErr = some e ∧ t.errInfo = Config.ioerrCode e ∧
      (t.errOffset = BitVec.ofNat 64 t.pos ∧ t.opos = s.opos ∨ t.errOffset = BitVec.ofNat 64 t.opos ∧ t.pos = s.pos) := by
  cases h with
  | alive phase => exact absurd hp phase
  | check code offset info u checks => exact absurd hcode checks.2
  | ended => cases hcode
  | unread e u opos => exact ⟨e, rfl, rfl, .inl ⟨rfl, opos⟩⟩
  | refused e u pos => exact ⟨e, rfl, rfl, .inr ⟨rfl, pos⟩⟩

/-! ### A DECODE -/

/-- A byte request delivers a byte, or the step ends. -/
theorem readByte_stepEnd {s : State} (hs : s.phase ≠ .error) :
    (∃ b rest, readByte s = .byte b { s with input := rest, pos := s.pos + 1 }) ∨
    ∃ t, readByte s = .stop t ∧ StepEnd s t := by
  rcases readByte_cases s with ⟨-, hr⟩ | ⟨rest, -, hr⟩ | ⟨b, rest, -, hr⟩ | ⟨rest, -, hr⟩ | ⟨e, rest, -, hr⟩
  · exact .inr ⟨_, hr, .alive hs⟩
  · exact .inr ⟨_, hr, .alive hs⟩
  · exact .inl ⟨b, rest, hr⟩
  · exact .inr ⟨_, hr, .ended { s with input := rest } rfl⟩
  · exact .inr ⟨_, hr, .unread e { s with input := rest } rfl⟩

theorem headerComplete_stepEnd {s u : State} : StepEnd s (headerComplete u) := by
  unfold headerComplete
  dsimp only
  split_ifs
  · exact .alive Phase.noConfusion
  · exact .alive Phase.noConfusion
  · exact .check _ _ _ _ (by decide)

theorem takeColorspace_stepEnd {s u : State} (b : Byte) : StepEnd s (takeColorspace b u) := by
  unfold takeColorspace
  split
  · exact headerComplete_stepEnd
  · exact .check _ _ _ _ (by decide)

section Header

variable {s u : State} (hu : u.phase ≠ .error)
include hu

theorem takeMagic_stepEnd (m : BitVec 32) : StepEnd s (takeMagic m u) := by
  unfold takeMagic
  split
  · exact .alive hu
  · exact .check _ _ _ _ (by decide)

theorem takeChannels_stepEnd (b : Byte) : StepEnd s (takeChannels b u) := by
  unfold takeChannels
  split
  · exact .alive hu
  · exact .check _ _ _ _ (by decide)

theorem takeHeaderByte_stepEnd (o : Nat) (b : Byte) : StepEnd s (takeHeaderByte o b u) := by
  unfold takeHeaderByte
  dsimp only
  split_ifs
  · exact takeMagic_stepEnd (u := { u with scratch := [] }) hu _
  · exact .alive hu
  · exact .alive hu
  · exact takeChannels_stepEnd hu b
  · exact takeColorspace_stepEnd b
  · exact .alive hu

end Header

theorem decHeaderStep_stepEnd {s : State} (hs : s.phase ≠ .error) : StepEnd s (decHeaderStep s) := by
  unfold decHeaderStep
  rcases readByte_stepEnd hs with ⟨b, rest, hr⟩ | ⟨t, hr, ht⟩ <;> rw [hr]
  · exact takeHeaderByte_stepEnd (u := { s with input := rest, pos := s.pos + 1 }) hs s.pos b
  · exact ht

/-- The delivery of a pixel is no error (R43). -/
theorem emitPixel_phase_ne_error {s : State} (hs : s.phase ≠ .error) : (emitPixel s).phase ≠ .error := by
  rcases emitPixel_cases s with ⟨-, he⟩ | ⟨rest, -, he⟩ | ⟨rest, -, he⟩ <;> rw [he]
  · exact hs
  · exact hs
  · rw [pixelAccepted_phase]
    split
    · exact hs
    · exact Phase.noConfusion

theorem execScratch_stepEnd {s u : State} (hu : u.phase ≠ .error) (hc : chunkComplete u.scratch = true) :
    ∃ t, execScratch u = .next t ∧ StepEnd s t := by
  obtain ⟨v, hv, hframe⟩ := execScratch_frame hc
  have hphase : v.phase = u.phase := by rw [hframe]
  exact ⟨_, hv, .alive (emitPixel_phase_ne_error (hphase ▸ hu))⟩

theorem decChunksStep_stepEnd {s : State} (hs : s.phase ≠ .error) : ∃ t, decChunksStep s = .next t ∧ StepEnd s t := by
  unfold decChunksStep
  split_ifs
  · exact ⟨_, rfl, .alive (emitPixel_phase_ne_error hs)⟩
  · exact ⟨_, rfl, .alive (emitPixel_phase_ne_error (s := runContinue s) hs)⟩
  · obtain ⟨u, hu, h⟩ := fetchChunk_cases s
    have hphase : u.phase ≠ .error := by rwa [hu.frame]
    have hopos : u.opos = s.opos := by rw [hu.frame]
    rcases h with ⟨hc, hf⟩ | hf | hf | ⟨e, hf⟩ <;> rw [hf]
    · exact execScratch_stepEnd hphase hc
    · exact ⟨_, rfl, .alive hphase⟩
    · exact ⟨_, rfl, .ended u hopos⟩
    · exact ⟨_, rfl, .unread e u hopos⟩

/-- A byte of the end marker is no error (R100, R105). -/
theorem markDone_phase_ne_error {s : State} (hs : s.phase ≠ .error) : (markDone s).phase ≠ .error := by
  rw [markDone_phase]
  split
  · exact hs
  · exact Phase.noConfusion

theorem decEndStep_stepEnd {s : State} (hs : s.phase ≠ .error) : StepEnd s (decEndStep s) := by
  unfold decEndStep
  rcases readByte_stepEnd hs with ⟨b, rest, hr⟩ | ⟨t, hr, ht⟩ <;> simp only [hr]
  · split
    · exact .alive (markDone_phase_ne_error (s := { s with input := rest, pos := s.pos + 1 }) hs)
    · exact .check _ _ _ _ (by decide)
  · exact ht

/-! ### An ENCODE -/

/-- No byte has been read since `s`, and no error taken. -/
structure Writing (s u : State) : Prop where
  pos : u.pos = s.pos
  phase : u.phase ≠ .error

/-- What writing leaves, seen from `s`: nothing has been read, or the step ends. -/
def WritesFrom (s : State) : Xfer → Prop
  | .ok v => Writing s v
  | .stop t => StepEnd s t

theorem WritesFrom.andThen {s : State} {x : Xfer} {f : State → State} (h : WritesFrom s x)
    (hf : ∀ v, Writing s v → StepEnd s (f v)) : StepEnd s (x.andThen f) := by
  cases x with
  | ok v => exact hf v h
  | stop t => exact h

theorem Writing.pixelEncoded {s u : State} (h : Writing s u) : StepEnd s (pixelEncoded u) := by
  refine .alive ?_
  rw [pixelEncoded_phase]
  split
  · exact h.phase
  · exact Phase.noConfusion

section Writes

variable {s u : State} {p : Pixel} (h : Writing s u)
include h

theorem Writing.writeByte (b : Byte) : WritesFrom s (writeByte b u) := by
  rcases writeByte_cases b u with ⟨-, hw⟩ | ⟨rest, -, hw⟩ | ⟨rest, -, hw⟩ | ⟨e, rest, -, hw⟩ <;> rw [hw]
  · exact .alive h.phase
  · exact .alive h.phase
  · exact ⟨h.pos, h.phase⟩
  · exact .refused e { u with byteSink := rest } h.pos

theorem Writing.writeScratch (bytes : List Byte) : WritesFrom s (writeScratch bytes u) := by
  induction bytes generalizing u with
  | nil => exact h
  | cons b bytes ih =>
    have hb := h.writeByte b
    rw [Machine.writeScratch]
    cases hw : Machine.writeByte b u <;> rw [hw] at hb
    · exact ih ⟨hb.pos, hb.phase⟩
    · exact hb

theorem Writing.emitRun : WritesFrom s (emitRun u) := by
  have hw := h.writeScratch u.scratch
  rw [Machine.emitRun]
  cases hx : Machine.writeScratch u.scratch u <;> rw [hx] at hw
  · exact ⟨hw.pos, hw.phase⟩
  · exact hw

theorem Writing.continueChunk : StepEnd s (continueChunk p u) :=
  (h.writeScratch u.scratch).andThen fun v hv => Writing.pixelEncoded (u := writePixel p v) ⟨hv.pos, hv.phase⟩

theorem Writing.beginChunk : StepEnd s (beginChunk p u) :=
  Writing.continueChunk (u := { u with scratch := encode (selectChunk u.prev u.cache p) }) ⟨h.pos, h.phase⟩

theorem Writing.resumePixel : StepEnd s (resumePixel p u) := by
  unfold Machine.resumePixel
  split_ifs
  · exact h.emitRun.andThen fun _ hv => hv.pixelEncoded
  · exact h.emitRun.andThen fun _ hv => hv.beginChunk
  · exact h.continueChunk

theorem Writing.takePixel : StepEnd s (takePixel p u) := by
  unfold Machine.takePixel
  dsimp only
  split_ifs
  · exact Writing.resumePixel ⟨h.pos, h.phase⟩
  · exact Writing.pixelEncoded ⟨h.pos, h.phase⟩
  · exact Writing.resumePixel ⟨h.pos, h.phase⟩
  · exact Writing.beginChunk ⟨h.pos, h.phase⟩

end Writes

theorem encHeaderStep_stepEnd {s : State} (hs : s.phase ≠ .error) : StepEnd s (encHeaderStep s) := by
  refine (Writing.writeByte ⟨rfl, hs⟩ _).andThen fun v hv => .alive ?_
  unfold headerByteWritten
  split
  · exact hv.phase
  · exact Phase.noConfusion

theorem encChunksStep_stepEnd {s : State} (hs : s.phase ≠ .error) : StepEnd s (encChunksStep s) := by
  unfold encChunksStep nextPixel
  split
  · exact Writing.resumePixel ⟨rfl, hs⟩
  · split
    · exact .alive hs
    · exact .alive hs
    · exact Writing.takePixel ⟨rfl, hs⟩

theorem encEndStep_stepEnd {s : State} (hs : s.phase ≠ .error) : StepEnd s (encEndStep s) :=
  (Writing.writeByte ⟨rfl, hs⟩ _).andThen fun _ hv => .alive (markDone_phase_ne_error hv.phase)

/-! ### The block -/

theorem blockStep_stepEnd {s : State} (hs : s.phase ≠ .error) : ∃ t, blockStep s = .next t ∧ StepEnd s t := by
  unfold blockStep
  split
  case h_1 | h_8 | h_9 => exact ⟨s, rfl, .alive hs⟩
  case h_2 => exact ⟨_, rfl, decHeaderStep_stepEnd hs⟩
  case h_3 => exact decChunksStep_stepEnd hs
  case h_4 => exact ⟨_, rfl, decEndStep_stepEnd hs⟩
  case h_5 => exact ⟨_, rfl, encHeaderStep_stepEnd hs⟩
  case h_6 => exact ⟨_, rfl, encChunksStep_stepEnd hs⟩
  case h_7 => exact ⟨_, rfl, encEndStep_stepEnd hs⟩

theorem stepEnd_of_blockStep {s t : State} (hs : s.phase ≠ .error) (h : blockStep s = .next t) : StepEnd s t := by
  obtain ⟨u, hu, hend⟩ := blockStep_stepEnd hs
  rw [hu] at h
  cases h
  exact hend

/-- A move of the block that enters PHASE ERROR is an operation that has failed. -/
theorem BlockMove.failed {s t : State} (h : BlockMove s t) (hs : s.phase ≠ .error) (ht : t.phase = .error) :
    Failed s t := by
  rcases h.record with ⟨-, hsame⟩ | ⟨-, hfailed⟩
  · exact absurd (hsame.mp ht) hs
  · exact hfailed

/-- Settles O44: what is kept is the frame of a failed operation, and the place of the error is how the step ends. -/
theorem errorsArePrecise : Obligations.ErrorsArePrecise := by
  intro s t hhost hs hstep ht
  have hfailed : Failed s t := (blockMove_of_step hhost hstep).failed hs ht
  have hend : StepEnd s t := stepEnd_of_blockStep hs (step_silent hhost ▸ hstep)
  exact ⟨hfailed.op, hfailed.k, hfailed.npix, hfailed.prev, hfailed.cache, hfailed.emitted, hend.truncated ht,
    hend.ioError ht⟩

end Sys2Proof.Machine
end

section
/-! PROOFS. The chunk words of the test vectors (95_test_vectors.md, sections 4 and 7). -/

namespace Sys2Proof.Machine

open Sys2Proof.Statements

/-- The bytes of a well-formed chunk and nothing after them are read as that chunk (R63, R74). -/
theorem decode_of_eq_encode {i : Instr} {bytes : List Byte} (hwf : i.wf = true) (hbytes : bytes = encode i) :
    decode bytes = .ok i [] := by
  have hread : decode (encode i ++ []) = .ok i [] := decodeInvertsEncode i [] hwf
  rwa [List.append_nil, ← hbytes] at hread

/-- Settles O6: each word is the encoding of the well-formed chunk its vector names. -/
theorem vectorWordsDecodeAsNamed : Obligations.VectorWordsDecodeAsNamed := by
  refine ⟨?rgb, ?rgba, ?index, ?diff, ?luma, ?run⟩
  case rgb | rgba => exact decode_of_eq_encode rfl rfl
  case index => exact decode_of_eq_encode rfl (encIndex_eq_iff.mpr rfl).symm
  case diff =>
    have hwf : (Instr.diff 1 0 (-1)).wf = true := by decide
    exact decode_of_eq_encode hwf ((encDiff_eq_iff hwf).mpr rfl).symm
  case luma =>
    have hwf : (Instr.luma 10 (-3) 4).wf = true := by decide
    exact decode_of_eq_encode hwf ((encLuma_eq_iff hwf).mpr ⟨rfl, rfl⟩).symm
  case run =>
    have hwf : (Instr.run 3).wf = true := by decide
    exact decode_of_eq_encode hwf ((encRun_eq_iff hwf).mpr rfl).symm

end Sys2Proof.Machine
end
